-- ==== Sys2Proof/Word.lean ====
section
/-! DEFINITION. The block's words and its closed sets of names: the byte (spec/20_memory.md R52), the 12-bit operation
word (spec/30_encoding.md R70, R71), and the enumerations the rules speak of. -/

namespace Sys2Proof

/-- Every register and every queue element is one byte (R20, R52). -/
abbrev Byte := BitVec 8

/-- The operation word of spec/30_encoding.md: notation for one bus cycle or one background call (R70, R71, D1). -/
abbrev OpWord := BitVec 12

/-- `usartState`, the control state machine variable (spec/10_state.md R21). -/
inductive UsartState
  | reset
  | modeInstruction
  | commandInstruction
  | operational
  deriving DecidableEq, Repr

/-- The three classes every bus cycle's port falls into (spec/20_memory.md R50). -/
inductive PortClass
  | data
  | control
  | other
  deriving DecidableEq, Repr

/-- The direction of a bus cycle (R70 field W; the `R` and `W` of R200). -/
inductive Direction
  | read
  | write
  deriving DecidableEq, Repr

/-- `ModemState.mode`, an input of the block (spec/10_state.md R39). -/
inductive ModemMode
  | command
  | online
  deriving DecidableEq, Repr

/-- The two agents that drive the block (spec/00_scope.md R9). -/
inductive Agent
  | host
  | background
  deriving DecidableEq, Repr

/-- How a host bus cycle ends (spec/40_bus_cycles.md R101): chosen by the host's strobe timing, an input of the cycle. -/
inductive CycleOutcome
  | completed
  | abandoned
  deriving DecidableEq, Repr

/-- What a completed write cycle on the control port is (spec/42_control_port.md R141). -/
inductive ControlWrite
  | mode
  | command
  | internalReset
  deriving DecidableEq, Repr

/-- Why the decoder refuses a word. -/
inductive Reject
  /-- Format B with OP = 011 to 111 names no operation of the block (spec/30_encoding.md R78). -/
  | reservedCall (op : BitVec 3)
  deriving DecidableEq, Repr

/-- What the decoder answers. -/
inductive Decoded (α : Type)
  | op (i : α)
  | refused (r : Reject)
  deriving DecidableEq, Repr

end Sys2Proof
end

