-- ==== Sys2Proof/Syntax.lean ====
section
/-! DEFINITION. The block's operations: one constructor per row of spec/opcode_table.json, with the operands of
spec/30_encoding.md R72. -/

namespace Sys2Proof

/-- The eleven operations of R75. -/
inductive Instr
  /-- RD_DATA: read the data port (R121). -/
  | rdData
  /-- RD_STATUS: read the control/status port (R140). -/
  | rdStatus
  /-- WR_DATA: write the data port (R124). -/
  | wrData (d : Byte)
  /-- WR_MODE: the control-port write taken in state Reset (R142). -/
  | wrMode (v : Byte)
  /-- WR_CMD: a control-port write with bit 6 clear, outside Reset (R143, R144, R145). -/
  | wrCmd (v : Byte)
  /-- WR_IR: a control-port write with bit 6 set, outside Reset (R146). -/
  | wrIr (v : Byte)
  /-- RD_OTHER: read an out-of-range port (R108). -/
  | rdOther
  /-- WR_OTHER: write an out-of-range port (R109). -/
  | wrOther (d : Byte)
  /-- RXPUSH: the background context appends to RXQ (R160). -/
  | rxPush (b : Byte)
  /-- TXPOP: the background context removes from TXQ (R163). -/
  | txPop
  /-- CONN_SET: the background context reports the Connection's state (R162). -/
  | connSet (c : Bool)
  deriving DecidableEq, Repr

end Sys2Proof
end

