-- ==== Sys2Proof/WellFormed.lean ====
section
/-! DEFINITION. Which terms of Instr stand for a row of the opcode table, and in which STATE a row is decoded
(spec/30_encoding.md R75). -/

namespace Sys2Proof

/-- The operand constraints of R75: WR_CMD's byte has bit 6 clear, WR_IR's has it set. -/
def Instr.wellFormed : Instr → Bool
  | .rdData => true
  | .rdStatus => true
  | .wrData _ => true
  | .wrMode _ => true
  | .wrCmd v => !v.getLsbD 6
  | .wrIr v => v.getLsbD 6
  | .rdOther => true
  | .wrOther _ => true
  | .rxPush _ => true
  | .txPop => true
  | .connSet _ => true

/-- The "condition on STATE" column of R75. -/
def Instr.availableIn : Instr → UsartState → Bool
  | .rdData, _ => true
  | .rdStatus, _ => true
  | .wrData _, _ => true
  | .wrMode _, st => st == .reset
  | .wrCmd _, st => st != .reset
  | .wrIr _, st => st != .reset
  | .rdOther, _ => true
  | .wrOther _, _ => true
  | .rxPush _, _ => true
  | .txPop, _ => true
  | .connSet _, _ => true

/-- The agent that issues the operation (spec/00_scope.md R9). -/
def Instr.agent : Instr → Agent
  | .rdData => .host
  | .rdStatus => .host
  | .wrData _ => .host
  | .wrMode _ => .host
  | .wrCmd _ => .host
  | .wrIr _ => .host
  | .rdOther => .host
  | .wrOther _ => .host
  | .rxPush _ => .background
  | .txPop => .background
  | .connSet _ => .background

end Sys2Proof
end

