-- ==== Sys2Proof/Decode.lean ====
section
/-! DEFINITION. The decoder of spec/30_encoding.md R74, the opcode table of R75, and the encoder. Total on all 4096
words: a reserved background call is refused by name (R78). -/

namespace Sys2Proof

/-- Field A: set for a background call (R70, R71). -/
def fieldA (w : OpWord) : Bool := w.getLsbD 11

/-- Field V: the selected port is DATA or CONTROL (R70). -/
def fieldV (w : OpWord) : Bool := w.getLsbD 10

/-- Field W: a write cycle (R70). -/
def fieldW (w : OpWord) : Bool := w.getLsbD 9

/-- Field C: CONTROL rather than DATA (R70). -/
def fieldC (w : OpWord) : Bool := w.getLsbD 8

/-- Field OP of a background call (R71). -/
def fieldOP (w : OpWord) : BitVec 3 := w.extractLsb' 8 3

/-- Field D of format H, field X of format B: the low byte, unchanged (R72). -/
def fieldD (w : OpWord) : Byte := w.extractLsb' 0 8

/-- The connection operand of CONN_SET: `X[0]` (R71, R72). -/
def connBit (w : OpWord) : Bool := w.getLsbD 0

/-- Bit 6 of a control-port byte: IR, the internal reset bit (spec/10_state.md R23). -/
def irBit (v : Byte) : Bool := v.getLsbD 6

/-- The agent a word belongs to: bit 11 alone tells the format (R80). -/
def wordAgent (w : OpWord) : Agent := if fieldA w then .background else .host

/-- The port class of a host cycle (R70). -/
def wordPort (w : OpWord) : PortClass :=
  if fieldV w then (if fieldC w then .control else .data) else .other

/-- The direction of a host cycle (R70). -/
def wordDirection (w : OpWord) : Direction := if fieldW w then .write else .read

/-- How a control-port write of byte `v` is read in a state (R73, R141). -/
def controlWrite (st : UsartState) (v : Byte) : ControlWrite :=
  match st with
  | .reset => .mode
  | .modeInstruction => if irBit v then .internalReset else .command
  | .commandInstruction => if irBit v then .internalReset else .command
  | .operational => if irBit v then .internalReset else .command

/-- The operation a control-port write of byte `v` is (R74, case (1,1)). -/
def controlWriteInstr (st : UsartState) (v : Byte) : Instr :=
  match controlWrite st v with
  | .mode => .wrMode v
  | .command => .wrCmd v
  | .internalReset => .wrIr v

/-- Format H of R74. -/
def decodeHost (w : OpWord) (st : UsartState) : Instr :=
  match fieldV w with
  | false => if fieldW w then .wrOther (fieldD w) else .rdOther
  | true =>
    match fieldW w, fieldC w with
    | false, false => .rdData
    | false, true => .rdStatus
    | true, false => .wrData (fieldD w)
    | true, true => controlWriteInstr st (fieldD w)

/-- Format B of R74; the five reserved values of OP are refused (R78). -/
def decodeCall (w : OpWord) : Decoded Instr :=
  if fieldOP w = 0 then .op (.rxPush (fieldD w))
  else if fieldOP w = 1 then .op .txPop
  else if fieldOP w = 2 then .op (.connSet (connBit w))
  else .refused (.reservedCall (fieldOP w))

/-- The decoder of R74: a word and the current `STATE` give one operation or a refusal. -/
def decode (w : OpWord) (st : UsartState) : Decoded Instr :=
  match fieldA w with
  | false => .op (decodeHost w st)
  | true => decodeCall w

/-- An operand byte placed in bits 7:0 of a word whose other bits are `base`. -/
def withOperand (base : OpWord) (d : Byte) : OpWord := base ||| d.setWidth 12

/-- The canonical word of an operation: ignored bits are 0 (R70, R71, R81). -/
def encode : Instr → OpWord
  | .rdData => 0x400#12
  | .rdStatus => 0x500#12
  | .wrData d => withOperand 0x600#12 d
  | .wrMode v => withOperand 0x700#12 v
  | .wrCmd v => withOperand 0x700#12 v
  | .wrIr v => withOperand 0x700#12 v
  | .rdOther => 0x000#12
  | .wrOther d => withOperand 0x200#12 d
  | .rxPush b => withOperand 0x800#12 b
  | .txPop => 0x900#12
  | .connSet c => if c then 0xA01#12 else 0xA00#12

/-- The bits of a word that an operation's row of R75 does not ignore (`x` in the pattern). -/
def significantBits : Instr → OpWord
  | .rdData => 0xF00#12
  | .rdStatus => 0xF00#12
  | .wrData _ => 0xFFF#12
  | .wrMode _ => 0xFFF#12
  | .wrCmd _ => 0xFFF#12
  | .wrIr _ => 0xFFF#12
  | .rdOther => 0xE00#12
  | .wrOther _ => 0xEFF#12
  | .rxPush _ => 0xFFF#12
  | .txPop => 0xF00#12
  | .connSet _ => 0xF01#12

/-- One row of R75: the pattern as a mask and the value under it, and the states of its condition. -/
structure OpcodeRow where
  mnemonic : String
  mask : OpWord
  pattern : OpWord
  states : List UsartState
  deriving DecidableEq, Repr

/-- "any" in R75's condition column. -/
def anyState : List UsartState := [.reset, .modeInstruction, .commandInstruction, .operational]

/-- "ModeInstruction, CommandInstruction, Operational" in R75's condition column. -/
def commandTakingStates : List UsartState := [.modeInstruction, .commandInstruction, .operational]

/-- The rows of R75 and of spec/opcode_table.json, in the table's order. -/
def opcodeTable : List OpcodeRow :=
  [ ⟨"RD_DATA", 0xF00#12, 0x400#12, anyState⟩,
    ⟨"RD_STATUS", 0xF00#12, 0x500#12, anyState⟩,
    ⟨"WR_DATA", 0xF00#12, 0x600#12, anyState⟩,
    ⟨"WR_MODE", 0xF00#12, 0x700#12, [.reset]⟩,
    ⟨"WR_CMD", 0xF40#12, 0x700#12, commandTakingStates⟩,
    ⟨"WR_IR", 0xF40#12, 0x740#12, commandTakingStates⟩,
    ⟨"RD_OTHER", 0xE00#12, 0x000#12, anyState⟩,
    ⟨"WR_OTHER", 0xE00#12, 0x200#12, anyState⟩,
    ⟨"RXPUSH", 0xF00#12, 0x800#12, anyState⟩,
    ⟨"TXPOP", 0xF00#12, 0x900#12, anyState⟩,
    ⟨"CONN_SET", 0xF00#12, 0xA00#12, anyState⟩ ]

/-- A row matches a word in a state. -/
def OpcodeRow.matchesWord (r : OpcodeRow) (w : OpWord) (st : UsartState) : Bool :=
  w &&& r.mask == r.pattern && r.states.contains st

/-- The table's name of an operation. -/
def Instr.mnemonic : Instr → String
  | .rdData => "RD_DATA"
  | .rdStatus => "RD_STATUS"
  | .wrData _ => "WR_DATA"
  | .wrMode _ => "WR_MODE"
  | .wrCmd _ => "WR_CMD"
  | .wrIr _ => "WR_IR"
  | .rdOther => "RD_OTHER"
  | .wrOther _ => "WR_OTHER"
  | .rxPush _ => "RXPUSH"
  | .txPop => "TXPOP"
  | .connSet _ => "CONN_SET"

/-- The operation the decoder reads from the operation word `w` in `STATE` = Reset, the state in which the machine is
right after reset (log entry 1). A number with a bit above the word's 12 (or above `nbits`) is no operation word. -/
def decodeTableWord (nbits w : Nat) : Option Instr :=
  if w < 2 ^ min nbits 12 then
    match decode (BitVec.ofNat 12 w) .reset with
    | .op i => some i
    | .refused _ => none
  else none

end Sys2Proof
end

