-- ==== Sys2Proof/Config.lean ====
section
/-! DEFINITION. The implementation parameters of spec/00_scope.md R7, and the values the spec leaves free.

The parameters that a rule reads are one plain record, `Params`; State carries it as a field that no step writes, so that
a claim over every state is a claim for every value of the parameters (R6, D7, D29). The OPEN items of R7 that no rule
evaluates are opaque constants: nothing in Lean can learn their value. -/

namespace Sys2Proof.Config

/-- The parameters of R7 that the operation rules read. -/
structure Params where
  /-- `RX_CAP`, a natural number above 0. -/
  rxCap : Nat
  /-- `TX_CAP`, a natural number above 0. -/
  txCap : Nat
  /-- `SENTINEL`, the "not ready" value of a data read. -/
  sentinel : Byte
  /-- `INVALID_READ_VALUE`, what a read of an out-of-range port returns. -/
  invalidReadValue : Byte
  /-- `IR_STATUS`, the status an internal reset leaves. -/
  irStatus : Byte
  /-- `OVERRUN_SETS_OE` (D7). -/
  overrunSetsOE : Bool
  /-- `POWER_ON_STATUS` (D5). -/
  powerOnStatus : Byte
  deriving DecidableEq, Repr

/-- The default column of R7's table. -/
def Params.defaults : Params where
  rxCap := 1024
  txCap := 1024
  sentinel := 0xFF#8
  invalidReadValue := 0x00#8
  irStatus := 0x05#8
  overrunSetsOE := false
  powerOnStatus := 0x00#8

/-- R7's type column: both capacities are above 0. -/
abbrev Params.capacitiesPositive (p : Params) : Prop := 0 < p.rxCap ∧ 0 < p.txCap

/-- `DATA_PORT_ADDR`: OPEN, no source gives a port number (R51, D2). Log entry 7. -/
opaque dataPortAddr : Nat

/-- Which of the remaining addresses the control port has: OPEN (R51, D2). Log entry 7. -/
opaque controlPortPick : Nat

/-- `CONTROL_PORT_ADDR`: any address but the data port's. Every pair of distinct addresses is some value of
`dataPortAddr` and `controlPortPick`, and no pair of equal ones is, since the block answers two ports (R50). -/
def controlPortAddr : Nat :=
  if controlPortPick < dataPortAddr then controlPortPick else controlPortPick + 1

/-- `ACCESS_DEADLINE`: OPEN and used by no rule (R7, D26); a cycle's outcome is an input. Log entry 8. -/
opaque accessDeadline : Nat

/-- The byte a host latches from an abandoned read: any 8-bit value (spec/40_bus_cycles.md R105, D3). The argument is
the number of the draw. Log entry 5. -/
opaque freeByte : Nat → Byte

end Sys2Proof.Config
end

