-- ==== Sys2Proof/Machine/State.lean ====
section
/-! DEFINITION. The block's state (spec/10_state.md R20), the environment's inputs, the values operations return, the
model's own fields, and the power-on state (R42). The block has no memory, no register file and no program counter (R43,
R50). -/

namespace Sys2Proof.Machine

/-- Which queue overflowed (R200). -/
inductive QueueId
  | tx
  | rx
  deriving DecidableEq, Repr

/-- Why a data write was discarded (R200). -/
inductive DiscardReason
  | notOperational
  | txDisabled
  deriving DecidableEq, Repr

/-- Who a written byte is handed to (spec/41_data_port.md R125). -/
inductive HandOffDest
  | hayes
  | network
  deriving DecidableEq, Repr

/-- The five conditions of spec/60_exceptions.md R200, with exactly the info its table records (R211). -/
inductive Condition
  | busTimeout (port : PortClass) (dir : Direction)
  | invalidRegisterAccess (dir : Direction)
  | queueOverflow (queue : QueueId) (byte : Byte)
  | readNotOperational
  | writeDiscarded (byte : Byte) (reason : DiscardReason)
  deriving DecidableEq, Repr

/-- One record of `TRACE` (R14, R40): a raised condition or an emitted hand-off. -/
inductive TraceEvent
  | raised (c : Condition)
  | handOff (dest : HandOffDest) (byte : Byte)
  deriving DecidableEq, Repr

/-- What the last operation returned to the agent that issued it (`return v` of R13; R102). -/
inductive Returned
  /-- No operation has run yet, or the last one returns no value. -/
  | nothing
  /-- The byte the host latched from a read cycle. -/
  | toHost (b : Byte)
  /-- TXPOP's answer: the popped byte, or `none` when TXQ was empty (R163). -/
  | toBackground (b : Option Byte)
  deriving DecidableEq, Repr

/-- One input from outside the block. The list of inputs is the one total order of R57. -/
inductive Input
  /-- A host bus cycle or a background call, as an operation word (R70, R71). The outcome is the host's strobe timing
  (R77, R101); a background call has no strobe, and its outcome is not read (log entry 12). -/
  | op (w : OpWord) (o : CycleOutcome)
  /-- A host bus cycle given by the host's port address, the control lines' direction and the byte on the data bus (R51,
  R100). -/
  | cycle (addr : Nat) (dir : Direction) (bus : Byte) (o : CycleOutcome)
  /-- The Hayes processor changes the modem mode between two operations (R39). -/
  | modemMode (m : ModemMode)
  /-- The emulator starts: power-on reset (R240). -/
  | powerOn
  deriving DecidableEq, Repr

/-- The block's state (R20: the first eight fields), the inputs it reads, the value it last returned, and the model's own
fields `params` (constant, R6) and `draws` (the counter of free draws). -/
structure State where
  /-- `STATE`. -/
  usartState : UsartState
  /-- `MODE`. -/
  mode : Byte
  /-- `CMD`. -/
  cmd : Byte
  /-- `STATUS`, a stored register (R26). -/
  status : Byte
  /-- `RXQ`, the oldest byte first (R12, R35). -/
  rxq : List Byte
  /-- `TXQ`, the oldest byte first (R12, R36). -/
  txq : List Byte
  /-- `CONN` (R38). -/
  conn : Bool
  /-- `TRACE`, the oldest record first (R40). -/
  trace : List TraceEvent
  /-- `MM`, the modem-mode input as it stands now (R39). -/
  mm : ModemMode
  /-- The inputs still to come, the next one first. -/
  pending : List Input
  /-- The value the last operation returned. -/
  returned : Returned
  /-- The implementation parameters (R7): the model's own constant field. -/
  params : Config.Params
  /-- How many free draws have been taken (R105): the model's own field. -/
  draws : Nat
  deriving DecidableEq, Repr

/-- No operation of the block faults: no condition is fatal and none stops the block (R207, R208). Nothing raises one,
which is what the spec says, so it is neither a safe nor an unsafe difference. -/
inductive Fault
  deriving DecidableEq, Repr

/-- The named refusals. -/
inductive Refusal
  /-- An arm of exec that has no meaning yet. No arm raises it in this model. Safe. -/
  | notModelled (mnemonic : String)
  /-- Raised by a step whose word is a reserved background call (R78: "A model refuses them"). Safe: the word names
  nothing the firmware does. -/
  | reservedCall (op : BitVec 3)
  /-- Raised by WR_MODE, WR_CMD and WR_IR run outside the `STATE` and bit 6 their row of R75 asks for, where the same
  control-port write is another operation. No step raises it (log entry 10). Safe. -/
  | notThisControlWrite
  deriving DecidableEq, Repr

/-- The three outcomes of a step or a meaning. -/
abbrev Answer := Host.Outcome State Fault Refusal

/-- The power-on state of R42 for given parameters, with no input pending. -/
def State.powerOn (p : Config.Params) : State where
  usartState := .reset
  mode := 0x00#8
  cmd := 0x00#8
  status := p.powerOnStatus
  rxq := []
  txq := []
  conn := false
  trace := []
  mm := .command
  pending := []
  returned := .nothing
  params := p
  draws := 0

/-- The machine right after power-on, the parameters at the source's defaults (R42, R240). -/
def State.reset : State := State.powerOn Config.Params.defaults

end Sys2Proof.Machine
end

