-- ==== Sys2Proof/Machine/Operands.lean ====
section
/-! DEFINITION. Operand forms: the named bits of a command instruction (spec/10_state.md R23), the port class of a host
address (R51), and the word a bus cycle is (R100). -/

namespace Sys2Proof.Machine

/-- TXEN, bit 0 of a command byte: gates data writes and TXRDY/TXE. -/
def cmdTxen (v : Byte) : Bool := v.getLsbD 0

/-- DTR, bit 1: stored, no effect (R24). -/
def cmdDtr (v : Byte) : Bool := v.getLsbD 1

/-- RXEN, bit 2: stored, no effect (R24). -/
def cmdRxen (v : Byte) : Bool := v.getLsbD 2

/-- SBRK, bit 3: stored, no effect (R24). -/
def cmdSbrk (v : Byte) : Bool := v.getLsbD 3

/-- ER, bit 4: clears the error flags under `OVERRUN_SETS_OE` (R147). -/
def cmdEr (v : Byte) : Bool := v.getLsbD 4

/-- RTS, bit 5: stored, no effect (R24). -/
def cmdRts (v : Byte) : Bool := v.getLsbD 5

/-- EH, bit 7: stored, no effect (R24). Bit 6, IR, is `Sys2Proof.irBit`. -/
def cmdEh (v : Byte) : Bool := v.getLsbD 7

/-- The class of a host port address (R50, R51). -/
def portClass (addr : Nat) : PortClass :=
  if addr = Config.dataPortAddr then .data
  else if addr = Config.controlPortAddr then .control
  else .other

/-- The class bits V and C of format H (R70). -/
def classBits : PortClass → OpWord
  | .data => 0x400#12
  | .control => 0x500#12
  | .other => 0x000#12

/-- The direction bit W of format H (R70). -/
def directionBit : Direction → OpWord
  | .read => 0x000#12
  | .write => 0x200#12

/-- The canonical format-H word of a bus cycle: a read cycle's D is 0 (R70, R100). -/
def cycleWord (c : PortClass) (dir : Direction) (bus : Byte) : OpWord :=
  match dir with
  | .read => classBits c ||| directionBit .read
  | .write => withOperand (classBits c ||| directionBit .write) bus

/-- Where a data write's byte is handed, by the modem mode at its commit (R125). -/
def handOffDest : ModemMode → HandOffDest
  | .command => .hayes
  | .online => .network

/-- The spec's code of a condition (R200). -/
def Condition.code : Condition → Nat
  | .busTimeout _ _ => 1
  | .invalidRegisterAccess _ => 2
  | .queueOverflow _ _ => 3
  | .readNotOperational => 4
  | .writeDiscarded _ _ => 5

end Sys2Proof.Machine
end

