-- ==== Sys2Proof/Machine/Flags.lean ====
section
/-! DEFINITION. The bits of `STATUS` (spec/10_state.md R25) and everything that computes them: recompute (R33), the ER
clear (R147), the data write's clear (R124). -/

namespace Sys2Proof.Machine

/-- `NAME[i] <- b` of R11: writes one bit and leaves the others. -/
def setBit (v : Byte) (i : Nat) (b : Bool) : Byte :=
  if b then v ||| (1#8 <<< i) else v &&& ~~~(1#8 <<< i)

/-- Bit number of TXRDY (mask 0x01). -/
abbrev txrdyBit : Nat := 0
/-- Bit number of RXRDY (mask 0x02). -/
abbrev rxrdyBit : Nat := 1
/-- Bit number of TXE (mask 0x04). -/
abbrev txeBit : Nat := 2
/-- Bit number of PE (mask 0x08). -/
abbrev peBit : Nat := 3
/-- Bit number of OE (mask 0x10). -/
abbrev oeBit : Nat := 4
/-- Bit number of FE (mask 0x20). -/
abbrev feBit : Nat := 5
/-- Bit number of SYNDET (mask 0x40). -/
abbrev syndetBit : Nat := 6
/-- Bit number of DSR (mask 0x80). -/
abbrev dsrBit : Nat := 7

/-- TXRDY's recompute value (R27). -/
def txrdyValue (cmd : Byte) (txq : List Byte) (txCap : Nat) : Bool := cmdTxen cmd && decide (txq.length < txCap)

/-- RXRDY's recompute value (R28). -/
def rxrdyValue (rxq : List Byte) : Bool := decide (0 < rxq.length)

/-- TXE's recompute value (R29). -/
def txeValue (cmd : Byte) (txq : List Byte) : Bool := cmdTxen cmd && decide (txq.length = 0)

/-- The status `recompute()` leaves (R33): bits 0, 1, 2 and 7 written, bits 3 to 6 kept. -/
def recomputedStatus (s : State) : Byte :=
  setBit (setBit (setBit (setBit s.status txrdyBit (txrdyValue s.cmd s.txq s.params.txCap))
    rxrdyBit (rxrdyValue s.rxq)) txeBit (txeValue s.cmd s.txq)) dsrBit s.conn

/-- The status `er_clear(v)` leaves (R147). -/
def erClearedStatus (overrunSetsOE : Bool) (v status : Byte) : Byte :=
  if overrunSetsOE && cmdEr v then
    setBit (setBit (setBit status peBit false) oeBit false) feBit false
  else status

/-- The data write's own "clear TXRDY/TXE", before the recompute (R124, C2). -/
def txFlagsCleared (status : Byte) : Byte := setBit (setBit status txrdyBit false) txeBit false

end Sys2Proof.Machine
end

