-- ==== Sys2Proof/Machine/Ops.lean ====
section
/-! DEFINITION. The named operations over the registers, the queues and the trace that the meanings are built from.
There is no trap to take and none to return from (spec/60_exceptions.md R209, R210): `raise` is all that a condition
does (R14). -/

namespace Sys2Proof.Machine

/-- `STATE <- v`. -/
def State.withUsartState (s : State) (v : UsartState) : State := { s with usartState := v }
/-- `MODE <- v`. -/
def State.withMode (s : State) (v : Byte) : State := { s with mode := v }
/-- `CMD <- v`. -/
def State.withCmd (s : State) (v : Byte) : State := { s with cmd := v }
/-- `STATUS <- v`. -/
def State.withStatus (s : State) (v : Byte) : State := { s with status := v }
/-- `RXQ <- q`. -/
def State.withRxq (s : State) (q : List Byte) : State := { s with rxq := q }
/-- `TXQ <- q`. -/
def State.withTxq (s : State) (q : List Byte) : State := { s with txq := q }
/-- `CONN <- c`. -/
def State.withConn (s : State) (c : Bool) : State := { s with conn := c }
/-- The environment's modem mode becomes `m` (R39). -/
def State.withMm (s : State) (m : ModemMode) : State := { s with mm := m }
/-- The inputs still to come. -/
def State.withPending (s : State) (l : List Input) : State := { s with pending := l }
/-- `return v` of an operation. -/
def State.withReturned (s : State) (r : Returned) : State := { s with returned := r }
/-- One more free draw has been taken. -/
def State.countDraw (s : State) : State := { s with draws := s.draws + 1 }
/-- `TRACE` is append-only (R14). -/
def State.record (s : State) (e : TraceEvent) : State := { s with trace := s.trace ++ [e] }

/-- `raise E(info)`: appends the record to `TRACE` and has no other effect (R14). -/
def State.raise (s : State) (c : Condition) : State := s.record (.raised c)

/-- `emit HandOff(dest, byte)` (R14, R125). -/
def State.handOff (s : State) (dest : HandOffDest) (b : Byte) : State := s.record (.handOff dest b)

/-- `recompute()` (R33). -/
def State.recompute (s : State) : State := s.withStatus (recomputedStatus s)

/-- `er_clear(v)` (R147). -/
def State.erClear (s : State) (v : Byte) : State :=
  s.withStatus (erClearedStatus s.params.overrunSetsOE v s.status)

/-- `RXQ <- RXQ ++ [b]` and the recompute of a queue mutation (R34, R160). -/
def State.pushRx (s : State) (b : Byte) : State := (s.withRxq (s.rxq ++ [b])).recompute

/-- RXQ becomes what is left after a pop, and the recompute of a queue mutation (R34, R121). -/
def State.dropRx (s : State) (rest : List Byte) : State := (s.withRxq rest).recompute

/-- `TXQ <- TXQ ++ [d]`, TXRDY and TXE cleared, and the recompute of a queue mutation (R124). -/
def State.pushTx (s : State) (d : Byte) : State :=
  let s₁ := s.withTxq (s.txq ++ [d])
  (s₁.withStatus (txFlagsCleared s₁.status)).recompute

/-- TXQ becomes what is left after a pop, and the recompute of a queue mutation (R34, R163). -/
def State.dropTx (s : State) (rest : List Byte) : State := (s.withTxq rest).recompute

/-- `overflow_rx(b)` (R161). -/
def State.overflowRx (s : State) (b : Byte) : State :=
  let s₁ := s.raise (.queueOverflow .rx b)
  if s.params.overrunSetsOE then s₁.withStatus (setBit s₁.status oeBit true) else s₁

/-- The common body of the command writes (R143, R144, R145): store, ER clear, the next `STATE`, recompute. -/
def State.storeCommand (s : State) (v : Byte) (next : UsartState) : State :=
  (((s.withCmd v).erClear v).withUsartState next).recompute

/-- Internal reset (R146): `MODE`, `CONN` and `TRACE` stay, and no recompute runs. -/
def State.internalReset (s : State) : State :=
  ((((s.withUsartState .modeInstruction).withCmd 0x00#8).withStatus s.params.irStatus).withRxq []).withTxq []

/-- Power-on reset (R42, R240). The parameters, the inputs still to come and the count of free draws are not the
block's state and stay. -/
def State.powerOnReset (s : State) : State :=
  { State.powerOn s.params with pending := s.pending, draws := s.draws }

end Sys2Proof.Machine
end

