-- ==== Sys2Proof/Machine/Background.lean ====
section
/-! DEFINITION. The background context's interface operations (spec/43_background_interface.md). -/

namespace Sys2Proof.Machine

/-- RXPUSH (R160, R161): allowed in every `STATE`. -/
def execRxPush (b : Byte) (s : State) : Answer :=
  if s.rxq.length = s.params.rxCap then .next ((s.overflowRx b).withReturned .nothing)
  else .next ((s.pushRx b).withReturned .nothing)

/-- TXPOP (R163): on an empty TXQ it returns `none` and changes nothing. -/
def execTxPop (s : State) : Answer :=
  match s.txq with
  | [] => .next (s.withReturned (.toBackground none))
  | b :: rest => .next ((s.dropTx rest).withReturned (.toBackground (some b)))

/-- CONN_SET (R162): `CONN` and DSR, no other bit, no recompute. -/
def execConnSet (c : Bool) (s : State) : Answer :=
  .next (((s.withConn c).withStatus (setBit s.status dsrBit c)).withReturned .nothing)

end Sys2Proof.Machine
end

