-- ==== Sys2Proof/Machine/BusCycle.lean ====
section
/-! DEFINITION. The bus interface cycle handler (spec/40_bus_cycles.md): the abandoned cycle and the two operations on an
out-of-range port. -/

namespace Sys2Proof.Machine

/-- An abandoned cycle (R104): BusTimeout and nothing else. The byte a host latches from an abandoned read is a free
draw (R105). -/
def State.abandon (s : State) (w : OpWord) : State :=
  let s₁ := s.raise (.busTimeout (wordPort w) (wordDirection w))
  match wordDirection w with
  | .read => (s₁.withReturned (.toHost (Config.freeByte s.draws))).countDraw
  | .write => s₁.withReturned .nothing

/-- RD_OTHER (R108). -/
def execRdOther (s : State) : Answer :=
  .next ((s.raise (.invalidRegisterAccess .read)).withReturned (.toHost s.params.invalidReadValue))

/-- WR_OTHER (R109): the sampled byte is ignored. -/
def execWrOther (_d : Byte) (s : State) : Answer :=
  .next ((s.raise (.invalidRegisterAccess .write)).withReturned .nothing)

end Sys2Proof.Machine
end

