-- ==== Sys2Proof/Machine/ControlPort.lean ====
section
/-! DEFINITION. The control/status port operations and the state machine (spec/42_control_port.md). The three
control-write operations run under the condition their row of spec/30_encoding.md R75 states; the decoder gives them
under no other (log entry 10). -/

namespace Sys2Proof.Machine

/-- RD_STATUS (R140): the stored value, no state change. -/
def execRdStatus (s : State) : Answer := .next (s.withReturned (.toHost s.status))

/-- WR_MODE (R142): every byte is taken, no bit is interpreted, no recompute. -/
def execWrMode (v : Byte) (s : State) : Answer :=
  match controlWrite s.usartState v with
  | .mode => .next (((s.withMode v).withUsartState .modeInstruction).withReturned .nothing)
  | .command => .refused .notThisControlWrite
  | .internalReset => .refused .notThisControlWrite

/-- The `STATE` a command write leads to (R141). -/
def afterCommand : UsartState → UsartState
  | .reset => .modeInstruction
  | .modeInstruction => .commandInstruction
  | .commandInstruction => .operational
  | .operational => .operational

/-- WR_CMD (R143 in ModeInstruction, R144 in CommandInstruction, R145 in Operational). -/
def execWrCmd (v : Byte) (s : State) : Answer :=
  match controlWrite s.usartState v with
  | .command => .next ((s.storeCommand v (afterCommand s.usartState)).withReturned .nothing)
  | .mode => .refused .notThisControlWrite
  | .internalReset => .refused .notThisControlWrite

/-- WR_IR (R146): the bits of `v` other than bit 6 are ignored. -/
def execWrIr (v : Byte) (s : State) : Answer :=
  match controlWrite s.usartState v with
  | .internalReset => .next (s.internalReset.withReturned .nothing)
  | .mode => .refused .notThisControlWrite
  | .command => .refused .notThisControlWrite

end Sys2Proof.Machine
end

