-- ==== Sys2Proof/Machine/DataPort.lean ====
section
/-! DEFINITION. The data port operations (spec/41_data_port.md). -/

namespace Sys2Proof.Machine

/-- RD_DATA (R121). -/
def execRdData (s : State) : Answer :=
  if s.usartState = .operational then
    match s.rxq with
    | [] => .next (s.withReturned (.toHost s.params.sentinel))
    | b :: rest => .next ((s.dropRx rest).withReturned (.toHost b))
  else .next ((s.raise .readNotOperational).withReturned (.toHost s.params.sentinel))

/-- WR_DATA (R124): the checks in the order of R212, then push, recompute and hand-off. -/
def execWrData (d : Byte) (s : State) : Answer :=
  if s.usartState = .operational then
    if cmdTxen s.cmd then
      if s.txq.length = s.params.txCap then
        .next ((s.raise (.queueOverflow .tx d)).withReturned .nothing)
      else .next (((s.pushTx d).handOff (handOffDest s.mm) d).withReturned .nothing)
    else .next ((s.raise (.writeDiscarded d .txDisabled)).withReturned .nothing)
  else .next ((s.raise (.writeDiscarded d .notOperational)).withReturned .nothing)

end Sys2Proof.Machine
end

