-- ==== Sys2Proof/Machine/Dispatch.lean ====
section
/-! DEFINITION. One arm per operation of spec/opcode_table.json: the call of its meaning. -/

namespace Sys2Proof.Machine

def exec (i : Instr) (s : State) : Host.Outcome State Fault Refusal :=
  match i with
  | .rdData => Sys2Proof.Machine.execRdData s
  | .rdStatus => Sys2Proof.Machine.execRdStatus s
  | .wrData d => Sys2Proof.Machine.execWrData d s
  | .wrMode v => Sys2Proof.Machine.execWrMode v s
  | .wrCmd v => Sys2Proof.Machine.execWrCmd v s
  | .wrIr v => Sys2Proof.Machine.execWrIr v s
  | .rdOther => Sys2Proof.Machine.execRdOther s
  | .wrOther d => Sys2Proof.Machine.execWrOther d s
  | .rxPush b => Sys2Proof.Machine.execRxPush b s
  | .txPop => Sys2Proof.Machine.execTxPop s
  | .connSet c => Sys2Proof.Machine.execConnSet c s

end Sys2Proof.Machine
end

