-- ==== Sys2Proof/Machine/Cycle.lean ====
section
/-! DEFINITION. How one input becomes one atomic operation of the block (spec/40_bus_cycles.md R100 to R104,
spec/20_memory.md R56). -/

namespace Sys2Proof.Machine

/-- What the decoder answered: the operation's meaning runs, and a reserved background call is refused (R78). -/
def runDecoded (d : Decoded Instr) (s : State) : Answer :=
  match d with
  | .op i => exec i s
  | .refused (.reservedCall op) => .refused (.reservedCall op)

/-- An operation word with its cycle's outcome: an abandoned host cycle runs R104, and any other word runs the operation
the decoder gives it in the current `STATE` (R102, R103). -/
def runWord (w : OpWord) (o : CycleOutcome) (s : State) : Answer :=
  match wordAgent w, o with
  | .host, .abandoned => .next (s.abandon w)
  | .host, .completed => runDecoded (decode w s.usartState) s
  | .background, _ => runDecoded (decode w s.usartState) s

/-- One input of the environment. -/
def runInput (e : Input) (s : State) : Answer :=
  match e with
  | .op w o => runWord w o s
  | .cycle addr dir bus o => runWord (cycleWord (portClass addr) dir bus) o s
  | .modemMode m => .next (s.withMm m)
  | .powerOn => .next s.powerOnReset

/-- The next input, if one has come; with none the block does nothing (log entry 2). -/
def runNext (s : State) : Answer :=
  match s.pending with
  | [] => .next s
  | e :: rest => runInput e (s.withPending rest)

/-- An operation word placed as the next input, its cycle completing. A number with a bit above the word's 12 (or above
`nbits`) is no operation word, and nothing is placed. -/
def placeWord (s : State) (nbits w : Nat) : State :=
  if w < 2 ^ min nbits 12 then s.withPending (.op (BitVec.ofNat 12 w) .completed :: s.pending) else s

end Sys2Proof.Machine
end

