-- ==== Sys2Proof/Machine/Step.lean ====
section
/-! DEFINITION. The step: the next input of the environment, run as one atomic operation. -/

namespace Sys2Proof.Machine

/-- One step of the block. -/
def step (s : State) : Host.Outcome State Fault Refusal := runNext s

/-- The operation word `w` becomes the next input: the block fetches nothing, its operations are issued from outside
(R43, R60; log entry 14). -/
def State.withFetchWord (s : State) (nbits w : Nat) : State := placeWord s nbits w

end Sys2Proof.Machine
end

