-- ==== Sys2Proof/Machine/Assembler.lean ====
section
/-! DEFINITION. The spec's own assembler lines (spec/30_encoding.md R81) and pseudo-instructions (R82), as data. -/

namespace Sys2Proof.Machine

/-- One line of R81's table. -/
inductive AsmLine
  /-- `IN D` -/
  | inD
  /-- `IN C` -/
  | inC
  /-- `OUT D, n` -/
  | outD (n : Byte)
  /-- `OUT C, n` -/
  | outC (n : Byte)
  /-- `IN X` -/
  | inX
  /-- `OUT X, n` -/
  | outX (n : Byte)
  /-- `BG RXPUSH n` -/
  | bgRxPush (n : Byte)
  /-- `BG TXPOP` -/
  | bgTxPop
  /-- `BG CONN_SET c` -/
  | bgConnSet (c : Bool)
  deriving DecidableEq, Repr

/-- The "word" column of R81. -/
def AsmLine.word : AsmLine → OpWord
  | .inD => 0x400#12
  | .inC => 0x500#12
  | .outD n => withOperand 0x600#12 n
  | .outC n => withOperand 0x700#12 n
  | .inX => 0x000#12
  | .outX n => withOperand 0x200#12 n
  | .bgRxPush n => withOperand 0x800#12 n
  | .bgTxPop => 0x900#12
  | .bgConnSet c => if c then 0xA01#12 else 0xA00#12

/-- A line with no suffix: its cycle completes. -/
def AsmLine.input (l : AsmLine) : Input := .op l.word .completed

/-- A line with the suffix `!T`: its cycle is abandoned. -/
def AsmLine.timedOut (l : AsmLine) : Input := .op l.word .abandoned

/-- The pseudo-instructions of R82. -/
inductive Pseudo
  /-- `IRESET` -/
  | ireset
  /-- `SETUP m, k` -/
  | setup (m k : Byte)
  /-- `RESETUP k` -/
  | resetup (k : Byte)
  deriving DecidableEq, Repr

/-- The "expansion" column of R82. -/
def Pseudo.expand : Pseudo → List AsmLine
  | .ireset => [.outC 0x40#8]
  | .setup m k => [.outC m, .outC k, .outC k]
  | .resetup k => [.outC k, .outC k]

/-- The inputs a pseudo-instruction issues. -/
def Pseudo.inputs (p : Pseudo) : List Input := p.expand.map AsmLine.input

end Sys2Proof.Machine
end

