-- ==== Sys2Proof/Machine/Environment.lean ====
section
/-! DEFINITION. What the source says the background context issues (spec/43_background_interface.md R164, R165), as
inputs. A description of the environment and no restriction of the block: the machine admits every list of inputs. -/

namespace Sys2Proof.Machine

/-- A Hayes response line: one RXPUSH per byte of its text, then 0x0D 0x0A (R165, row ENV6 of R164). -/
def responseLine (text : List Byte) : List Input := (text ++ [0x0D#8, 0x0A#8]).map fun b => (AsmLine.bgRxPush b).input

/-- A successful connect (row ENV3). -/
def connectSucceeds : List Input := [(AsmLine.bgConnSet true).input]

/-- A remote close: CONN_SET(0), the modem mode forced to Command, then the response's bytes (row ENV5, and R162 corner
case (c)). -/
def remoteClose (text : List Byte) : List Input :=
  (AsmLine.bgConnSet false).input :: .modemMode .command :: responseLine text

/-- The escape sequence: the modem mode becomes Command, then the response's bytes (row ENV7). -/
def escapeDetected (text : List Byte) : List Input := .modemMode .command :: responseLine text

end Sys2Proof.Machine
end

