-- ==== Sys2Proof/Safety.lean ====
section
/-! DEFINITION. The terms claims use: issuing inputs, the status rules bit by bit, and the invariants of the block. -/

namespace Sys2Proof.Machine

/-- The step that runs the input `e` next, before whatever is already pending. -/
def issue (e : Input) (s : State) : Answer := step (s.withPending (e :: s.pending))

/-- The inputs of a list issued one after another: one total order of operations (R57). -/
def issueAll : List Input → State → Answer
  | [], s => .next s
  | e :: es, s =>
    match issue e s with
    | .next t => issueAll es t
    | .fault r => .fault r
    | .refused r => .refused r

/-- What each operation of a list returns to its agent, in order, up to the first that has no next state. -/
def returnsOf : List Input → State → List Returned
  | [], _ => []
  | e :: es, s =>
    match issue e s with
    | .next t => t.returned :: returnsOf es t
    | .fault _ => []
    | .refused _ => []

/-- Bits 0, 1, 2 and 7 of `STATUS` are what `recompute()` would write (R33, R41 "the recompute image"). -/
structure ImageHolds (t : State) : Prop where
  txrdy : t.status.getLsbD 0 = (t.cmd.getLsbD 0 && decide (t.txq.length < t.params.txCap))
  rxrdy : t.status.getLsbD 1 = decide (t.rxq ≠ [])
  txe : t.status.getLsbD 2 = (t.cmd.getLsbD 0 && decide (t.txq = []))
  dsr : t.status.getLsbD 7 = t.conn

/-- Bits 3 to 6 of `STATUS` (PE, OE, FE, SYNDET) are `keep`. -/
def UpperBitsAre (keep : Nat → Bool) (t : State) : Prop :=
  ∀ i, 3 ≤ i → i ≤ 6 → t.status.getLsbD i = keep i

/-- The status a recompute leaves when it starts from `old` (R33). -/
def RecomputedFrom (old : Byte) (t : State) : Prop := ImageHolds t ∧ UpperBitsAre old.getLsbD t

/-- The window of R41, between an internal reset and the next recompute. -/
structure InResetWindow (s : State) : Prop where
  usartState : s.usartState = .modeInstruction
  cmd : s.cmd = 0x00#8
  rxq : s.rxq = []
  txq : s.txq = []
  txrdy : s.status.getLsbD 0 = true
  rxrdy : s.status.getLsbD 1 = false
  txe : s.status.getLsbD 2 = true
  dsr : s.status.getLsbD 7 = false ∨ s.status.getLsbD 7 = s.conn

/-- The premise of the status invariants: `IR_STATUS` and `POWER_ON_STATUS` at their defaults (R7), both capacities
above 0 (R7). -/
structure ParamsAsSpec (p : Config.Params) : Prop where
  irStatus : p.irStatus = 0x05#8
  powerOnStatus : p.powerOnStatus = 0x00#8
  capacities : p.capacitiesPositive

/-- The invariant of the block. -/
structure BankInv (s : State) : Prop where
  /-- R7. -/
  params : ParamsAsSpec s.params
  /-- R37. -/
  rxCapacity : s.rxq.length ≤ s.params.rxCap
  /-- R37. -/
  txCapacity : s.txq.length ≤ s.params.txCap
  /-- R23: a value with bit 6 set is never stored. -/
  cmdIr : s.cmd.getLsbD 6 = false
  /-- R144 corner case (c): TXQ holds bytes in Operational only. -/
  txqOperational : s.usartState ≠ .operational → s.txq = []
  /-- R41. -/
  status : ImageHolds s ∨ InResetWindow s
  /-- R30: PE, FE and SYNDET are never 1. -/
  errorBits : s.status.getLsbD 3 = false ∧ s.status.getLsbD 5 = false ∧ s.status.getLsbD 6 = false
  /-- R31: without `OVERRUN_SETS_OE`, OE is never 1. -/
  overrun : s.params.overrunSetsOE = false → s.status.getLsbD 4 = false

/-- The inputs that are not HOST operations: background calls, changes of the modem mode. -/
def Input.notHost : Input → Bool
  | .op w _ => w.getLsbD 11
  | .cycle _ _ _ _ => false
  | .modemMode _ => true
  | .powerOn => false

/-- `CONN` after an input, given its value before (R38): CONN_SET writes it, power-on clears it, nothing else does. -/
def connAfter (c : Bool) : Input → Bool
  | .op w _ => if w.toNat / 256 = 10 then w.getLsbD 0 else c
  | .cycle _ _ _ _ => c
  | .modemMode _ => c
  | .powerOn => false

/-- Which operation raises which condition in which state (the columns "raised by" and "when" of R200). -/
def RaisedBy (i : Instr) (s : State) : Condition → Prop
  | .busTimeout _ _ => False
  | .invalidRegisterAccess .read => i = .rdOther
  | .invalidRegisterAccess .write => ∃ d, i = .wrOther d
  | .queueOverflow .tx b =>
    i = .wrData b ∧ s.usartState = .operational ∧ s.cmd.getLsbD 0 = true ∧ s.txq.length = s.params.txCap
  | .queueOverflow .rx b => i = .rxPush b ∧ s.rxq.length = s.params.rxCap
  | .readNotOperational => i = .rdData ∧ s.usartState ≠ .operational
  | .writeDiscarded b .notOperational => i = .wrData b ∧ s.usartState ≠ .operational
  | .writeDiscarded b .txDisabled => i = .wrData b ∧ s.usartState = .operational ∧ s.cmd.getLsbD 0 = false

/-- A data write is effective (R123). -/
def WriteEffective (s : State) : Prop :=
  s.usartState = .operational ∧ s.cmd.getLsbD 0 = true ∧ s.txq.length < s.params.txCap

/-- The answer with a function applied to its next state: how a claim compares two runs. -/
def mapNext (f : State → State) : Answer → Answer
  | .next t => .next (f t)
  | .fault r => .fault r
  | .refused r => .refused r

end Sys2Proof.Machine
end

