-- ==== Sys2Proof/Certificates/Slice0/Obligations.lean ====
section
/-! DEFINITION. The statements about the block, from the numbered rules of spec/. Each docstring names the rule it formalises;
where a clause is the spec's own inference or decision, or the model's choice, the docstring says so. -/

open Sys2Proof Sys2Proof.Machine

/-! ### Encoding -/

/-- R74, whole: the decoder read off the number a word is, for every word and every `STATE`. -/
def Obligations.DecodeFollowsOpcodeMap : Prop :=
  ∀ (w : OpWord) (st : UsartState),
    let high := w.toNat / 256
    let low := BitVec.ofNat 8 w.toNat
    (high = 0 ∨ high = 1 → decode w st = .op .rdOther) ∧
    (high = 2 ∨ high = 3 → decode w st = .op (.wrOther low)) ∧
    (high = 4 → decode w st = .op .rdData) ∧
    (high = 5 → decode w st = .op .rdStatus) ∧
    (high = 6 → decode w st = .op (.wrData low)) ∧
    (high = 7 → st = .reset → decode w st = .op (.wrMode low)) ∧
    (high = 7 → st ≠ .reset → w.toNat / 64 % 2 = 1 → decode w st = .op (.wrIr low)) ∧
    (high = 7 → st ≠ .reset → w.toNat / 64 % 2 = 0 → decode w st = .op (.wrCmd low)) ∧
    (high = 8 → decode w st = .op (.rxPush low)) ∧
    (high = 9 → decode w st = .op .txPop) ∧
    (high = 10 → decode w st = .op (.connSet (decide (w.toNat % 2 = 1)))) ∧
    (11 ≤ high → ∃ r, decode w st = .refused r)

/-- Headline (a): no operand bit of an encoding is dropped. Every well-formed operation, in every state its row of R75 is
available in, is what the decoder reads from its canonical word. -/
def Obligations.DecodeOfEncodeIsIdentity : Prop :=
  ∀ (i : Instr) (st : UsartState), i.wellFormed = true → i.availableIn st = true → decode (encode i) st = .op i

/-- The other direction (R75, R79, R80): a decoded operation is well formed, available in the state and of the word's
agent, and its canonical word is the word with the ignored bits cleared. -/
def Obligations.EncodeOfDecodeClearsIgnoredBits : Prop :=
  ∀ (w : OpWord) (st : UsartState) (i : Instr), decode w st = .op i →
    i.wellFormed = true ∧ i.availableIn st = true ∧ i.agent = wordAgent w ∧
    encode i = w &&& significantBits i

/-- R79 (the spec's own inference from R74): two words that differ in ignored bits only decode to the same operation with
the same operand. -/
def Obligations.IgnoredBitsChangeNothing : Prop :=
  ∀ (w w' : OpWord) (st : UsartState) (i : Instr), decode w st = .op i →
    w' &&& significantBits i = w &&& significantBits i → decode w' st = .op i

/-- R75 (the spec's own inference from R74): in any one state, a word the decoder gives an operation matches exactly that
operation's row of the table, and a refused word matches none. -/
def Obligations.ExactlyOneTableRowMatches : Prop :=
  ∀ (w : OpWord) (st : UsartState),
    (opcodeTable.filter (fun r => r.matchesWord w st)).map OpcodeRow.mnemonic =
      match decode w st with
      | .op i => [i.mnemonic]
      | .refused _ => []

/-- Words written out from R75's patterns, and the spec's vectors DE-1 to DE-13, decode to what they stand for. -/
def Obligations.WrittenOutWordsDecode : Prop :=
  decode 0b010011111111#12 .operational = .op .rdData ∧
  decode 0b010110101010#12 .reset = .op .rdStatus ∧
  decode 0b011001000001#12 .operational = .op (.wrData 0x41#8) ∧
  decode 0b011101000000#12 .reset = .op (.wrMode 0x40#8) ∧
  decode 0b011101001110#12 .modeInstruction = .op (.wrIr 0x4E#8) ∧
  decode 0b011100110111#12 .commandInstruction = .op (.wrCmd 0x37#8) ∧
  decode 0b000111111111#12 .reset = .op .rdOther ∧
  decode 0b001110101011#12 .reset = .op (.wrOther 0xAB#8) ∧
  decode 0b100011111111#12 .reset = .op (.rxPush 0xFF#8) ∧
  decode 0b100111111111#12 .reset = .op .txPop ∧
  decode 0b101011111110#12 .reset = .op (.connSet false) ∧
  decode 0b101000000001#12 .reset = .op (.connSet true) ∧
  decode 0b111100010010#12 .reset = .refused (.reservedCall 7#3)

/-! ### The step -/

/-- A step runs the decoded operation (R102, R103): with an operation word next, of a background call or of a cycle that
completes, the step is exec of the decoded operation, the input taken off the list. With no input pending the block
stays as it is (the model's choice, log entry 2). -/
def Obligations.StepRunsDecodedOperation : Prop :=
  (∀ (s : State) (w : OpWord) (o : CycleOutcome) (rest : List Input) (i : Instr),
    s.pending = .op w o :: rest → (w.getLsbD 11 = true ∨ o = .completed) → decode w s.usartState = .op i →
      step s = exec i { s with pending := rest }) ∧
  (∀ s : State, s.pending = [] → step s = .next s)

/-- R100 and R51: a cycle given by the host's port address runs as the word of its port class, direction and byte. The
data port's address is class DATA, the control port's CONTROL, and every other address OTHER. -/
def Obligations.CycleAtAddressRunsAsItsWord : Prop :=
  (∀ (s : State) (addr : Nat) (dir : Direction) (bus : Byte) (o : CycleOutcome) (rest : List Input),
    s.pending = .cycle addr dir bus o :: rest →
      step s = step { s with pending := .op (cycleWord (portClass addr) dir bus) o :: rest }) ∧
  portClass Config.dataPortAddr = .data ∧
  portClass Config.controlPortAddr = .control ∧
  (∀ addr, addr ≠ Config.dataPortAddr → addr ≠ Config.controlPortAddr → portClass addr = .other) ∧
  (∀ (c : PortClass) (bus : Byte) (st : UsartState),
    decode (cycleWord c .read bus) st =
      .op (match c with | .data => .rdData | .control => .rdStatus | .other => .rdOther) ∧
    decode (cycleWord c .write bus) st =
      .op (match c with | .data => .wrData bus | .control => controlWriteInstr st bus | .other => .wrOther bus))

/-- R104 and R201: an abandoned cycle, whatever its port class and direction, raises BusTimeout once, with the class and
direction of its word, and changes nothing else of the block. What the host latches from an abandoned read is a free
draw (R105, the spec's decision D3; log entry 5): this statement says nothing about its value. -/
def Obligations.AbandonedCycleOnlyRaisesBusTimeout : Prop :=
  ∀ (s : State) (w : OpWord) (rest : List Input),
    s.pending = .op w .abandoned :: rest → w.getLsbD 11 = false →
      ∃ t, step s = .next t ∧
        t = { s with
          pending := rest
          trace := s.trace ++ [.raised (.busTimeout
            (if w.getLsbD 10 then (if w.getLsbD 8 then .control else .data) else .other)
            (if w.getLsbD 9 then .write else .read))]
          returned := t.returned
          draws := t.draws } ∧
        (w.getLsbD 9 = true → t.returned = .nothing ∧ t.draws = s.draws) ∧
        (w.getLsbD 9 = false → ∃ b, t.returned = .toHost b)

/-- R39 and R240: a change of the modem mode changes the input MM and nothing else; power-on puts every piece of the
block's state at R42's value and MM at Command. That the inputs still to come, the parameters and the count of draws
stay is the model's choice (log entry 9). -/
def Obligations.ModemModeAndPowerOnInputs : Prop :=
  (∀ (s : State) (m : ModemMode) (rest : List Input), s.pending = .modemMode m :: rest →
    step s = .next { s with pending := rest, mm := m }) ∧
  (∀ (s : State) (rest : List Input), s.pending = .powerOn :: rest →
    step s = .next
      { usartState := .reset, mode := 0x00#8, cmd := 0x00#8, status := s.params.powerOnStatus, rxq := [], txq := [],
        conn := false, trace := [], mm := .command, pending := rest, returned := .nothing, params := s.params,
        draws := s.draws })

/-- R78 and R208 (the spec's own decision D30 and inference): a step is refused for a reserved background call and for
nothing else, whatever the state; so no host cycle ever stops the block. -/
def Obligations.StepRefusesReservedCallsOnly : Prop :=
  ∀ (s : State) (r : Refusal),
    step s = .refused r ↔
      ∃ w o rest, s.pending = .op w o :: rest ∧ 11 ≤ w.toNat / 256 ∧
        r = .reservedCall (BitVec.ofNat 3 (w.toNat / 256))

/-- R207 with R208: from every state and whatever came before, every input that is not a reserved background call has a
next state. -/
def Obligations.EveryOtherInputHasNextState : Prop :=
  ∀ (s : State) (e : Input), (∀ w o, e = .op w o → w.toNat / 256 < 11) → ∃ t, issue e s = .next t

/-! ### Reset -/

/-- R42 and R240 (the spec's decision D5): the state right after power-on, with the parameters at R7's defaults. That no
input is pending, nothing has been returned and no draw taken is the model's choice (log entries 2, 5 and 6). -/
def Obligations.PowerOnState : Prop :=
  State.reset =
    { usartState := .reset, mode := 0x00#8, cmd := 0x00#8, status := 0x00#8, rxq := [], txq := [], conn := false,
      trace := [], mm := .command, pending := [], returned := .nothing,
      params := ⟨1024, 1024, 0xFF#8, 0x00#8, 0x05#8, false, 0x00#8⟩, draws := 0 }

/-! ### The operations: the result and everything left unchanged -/

/-- R121: RD_DATA in its three cases. Each next state is the old one but for the fields written out. -/
def Obligations.RdDataResult : Prop :=
  (∀ s : State, s.usartState ≠ .operational →
    exec .rdData s = .next { s with
      trace := s.trace ++ [.raised .readNotOperational], returned := .toHost s.params.sentinel }) ∧
  (∀ s : State, s.usartState = .operational → s.rxq = [] →
    exec .rdData s = .next { s with returned := .toHost s.params.sentinel }) ∧
  (∀ (s : State) (b : Byte) (rest : List Byte), s.usartState = .operational → s.rxq = b :: rest →
    ∃ t, exec .rdData s = .next t ∧ RecomputedFrom s.status t ∧
      t = { s with rxq := rest, status := t.status, returned := .toHost b })

/-- R124: WR_DATA in its four cases, in the order of its checks. -/
def Obligations.WrDataResult : Prop :=
  (∀ (s : State) (d : Byte), s.usartState ≠ .operational →
    exec (.wrData d) s = .next { s with
      trace := s.trace ++ [.raised (.writeDiscarded d .notOperational)], returned := .nothing }) ∧
  (∀ (s : State) (d : Byte), s.usartState = .operational → s.cmd.getLsbD 0 = false →
    exec (.wrData d) s = .next { s with
      trace := s.trace ++ [.raised (.writeDiscarded d .txDisabled)], returned := .nothing }) ∧
  (∀ (s : State) (d : Byte), s.usartState = .operational → s.cmd.getLsbD 0 = true → s.txq.length = s.params.txCap →
    exec (.wrData d) s = .next { s with
      trace := s.trace ++ [.raised (.queueOverflow .tx d)], returned := .nothing }) ∧
  (∀ (s : State) (d : Byte), s.usartState = .operational → s.cmd.getLsbD 0 = true → s.txq.length ≠ s.params.txCap →
    ∃ t, exec (.wrData d) s = .next t ∧ RecomputedFrom s.status t ∧
      t = { s with
        txq := s.txq ++ [d]
        status := t.status
        trace := s.trace ++ [.handOff (if s.mm = .command then .hayes else .network) d]
        returned := .nothing })

/-- R140: RD_STATUS returns the stored status and changes no state. -/
def Obligations.RdStatusResult : Prop :=
  ∀ s : State, exec .rdStatus s = .next { s with returned := .toHost s.status }

/-- R142: in Reset, WR_MODE stores every byte whole and goes to ModeInstruction, with no recompute; and it is the only way
out of Reset, into which no operation leads back. -/
def Obligations.WrModeResult : Prop :=
  (∀ (s : State) (v : Byte), s.usartState = .reset →
    exec (.wrMode v) s = .next { s with mode := v, usartState := .modeInstruction, returned := .nothing }) ∧
  (∀ (i : Instr) (s t : State), exec i s = .next t →
    (s.usartState = .reset → t.usartState ≠ .reset → ∃ v, i = .wrMode v) ∧
    (t.usartState = .reset → s.usartState = .reset))

/-- R143, R144 and R145: WR_CMD stores its byte, takes `STATE` from ModeInstruction to CommandInstruction and from the
other two to Operational, and recomputes. PE, OE and FE are cleared under `OVERRUN_SETS_OE` when bit 4 (ER) is set, and
SYNDET is kept (R147). -/
def Obligations.WrCmdResult : Prop :=
  ∀ (s : State) (v : Byte), v.getLsbD 6 = false → s.usartState ≠ .reset →
    ∃ t, exec (.wrCmd v) s = .next t ∧ ImageHolds t ∧
      UpperBitsAre
        (fun k => s.status.getLsbD k && !(s.params.overrunSetsOE && v.getLsbD 4 && decide (k ≠ 6))) t ∧
      t = { s with
        cmd := v
        usartState := (if s.usartState = .modeInstruction then .commandInstruction else .operational)
        status := t.status
        returned := .nothing }

/-- R146: the internal reset, the same for every byte with bit 6 set and from each of the three states. -/
def Obligations.WrIrResult : Prop :=
  ∀ (s : State) (v : Byte), v.getLsbD 6 = true → s.usartState ≠ .reset →
    exec (.wrIr v) s = .next { s with
      usartState := .modeInstruction, cmd := 0x00#8, status := s.params.irStatus, rxq := [], txq := [],
      returned := .nothing }

/-- R108, R109 and R202: the out-of-range port operations, in every state. -/
def Obligations.OutOfRangePortResult : Prop :=
  (∀ s : State, exec .rdOther s = .next { s with
    trace := s.trace ++ [.raised (.invalidRegisterAccess .read)], returned := .toHost s.params.invalidReadValue }) ∧
  (∀ (s : State) (d : Byte), exec (.wrOther d) s = .next { s with
    trace := s.trace ++ [.raised (.invalidRegisterAccess .write)], returned := .nothing })

/-- R160: RXPUSH in every state: on a queue that is not full the byte is appended and the status recomputed; on a full one
the byte is dropped, QueueOverflow(RX) is raised, and OE is set only under `OVERRUN_SETS_OE` (R161). -/
def Obligations.RxPushResult : Prop :=
  (∀ (s : State) (b : Byte), s.rxq.length ≠ s.params.rxCap →
    ∃ t, exec (.rxPush b) s = .next t ∧ RecomputedFrom s.status t ∧ t.status.getLsbD 1 = true ∧
      t = { s with rxq := s.rxq ++ [b], status := t.status, returned := .nothing }) ∧
  (∀ (s : State) (b : Byte), s.rxq.length = s.params.rxCap →
    ∃ t, exec (.rxPush b) s = .next t ∧
      (∀ k, t.status.getLsbD k = (s.status.getLsbD k || (s.params.overrunSetsOE && decide (k = 4)))) ∧
      t = { s with
        status := t.status, trace := s.trace ++ [.raised (.queueOverflow .rx b)], returned := .nothing })

/-- R163: TXPOP in every state returns and removes the oldest byte and recomputes, or on an empty TXQ returns none and
changes nothing. -/
def Obligations.TxPopResult : Prop :=
  (∀ s : State, s.txq = [] → exec .txPop s = .next { s with returned := .toBackground none }) ∧
  (∀ (s : State) (b : Byte) (rest : List Byte), s.txq = b :: rest →
    ∃ t, exec .txPop s = .next t ∧ RecomputedFrom s.status t ∧
      t = { s with txq := rest, status := t.status, returned := .toBackground (some b) })

/-- R162 (the spec's decision D11: DSR and no recompute): CONN_SET in every state. -/
def Obligations.ConnSetResult : Prop :=
  ∀ (s : State) (c : Bool), ∃ t, exec (.connSet c) s = .next t ∧
    (∀ k, t.status.getLsbD k = if k = 7 then c else s.status.getLsbD k) ∧
    t = { s with conn := c, status := t.status, returned := .nothing }

/-- The model's choice of log entry 10: a control-write operation run outside the state and bit 6 of its row of R75 is
refused by name. No step does so: StepRefusesReservedCallsOnly. -/
def Obligations.ControlWriteOutsideItsRowRefused : Prop :=
  ∀ (s : State) (v : Byte),
    (s.usartState ≠ .reset → exec (.wrMode v) s = .refused .notThisControlWrite) ∧
    (s.usartState = .reset ∨ v.getLsbD 6 = true → exec (.wrCmd v) s = .refused .notThisControlWrite) ∧
    (s.usartState = .reset ∨ v.getLsbD 6 = false → exec (.wrIr v) s = .refused .notThisControlWrite)

/-- R141 (with the spec's decision D4 in CommandInstruction): the transition table of a completed control-port write. -/
def Obligations.ControlWriteTransitions : Prop :=
  ∀ (s : State) (v : Byte), ∃ t, issue (AsmLine.outC v).input s = .next t ∧
    t.usartState =
      match s.usartState, v.getLsbD 6 with
      | .reset, _ => .modeInstruction
      | .modeInstruction, false => .commandInstruction
      | .modeInstruction, true => .modeInstruction
      | .commandInstruction, false => .operational
      | .commandInstruction, true => .modeInstruction
      | .operational, false => .operational
      | .operational, true => .modeInstruction

/-! ### Frames over all operations -/

/-- R45 (the spec's own inference): which operation may write each piece of state. No operation writes the modem mode,
the inputs still to come, the parameters or the count of draws. -/
def Obligations.OnlyListedOperationsWriteEachRegister : Prop :=
  ∀ (i : Instr) (s t : State), exec i s = .next t →
    (t.usartState ≠ s.usartState → (∃ v, i = .wrMode v) ∨ (∃ v, i = .wrCmd v) ∨ (∃ v, i = .wrIr v)) ∧
    (t.mode ≠ s.mode → ∃ v, i = .wrMode v) ∧
    (t.cmd ≠ s.cmd → (∃ v, i = .wrCmd v) ∨ (∃ v, i = .wrIr v)) ∧
    (t.status ≠ s.status → i = .rdData ∨ (∃ d, i = .wrData d) ∨ (∃ v, i = .wrCmd v) ∨ (∃ v, i = .wrIr v) ∨
      (∃ b, i = .rxPush b) ∨ i = .txPop ∨ (∃ c, i = .connSet c)) ∧
    (t.rxq ≠ s.rxq → (∃ b, i = .rxPush b) ∨ i = .rdData ∨ (∃ v, i = .wrIr v)) ∧
    (t.txq ≠ s.txq → (∃ d, i = .wrData d) ∨ i = .txPop ∨ (∃ v, i = .wrIr v)) ∧
    (t.conn ≠ s.conn → ∃ c, i = .connSet c) ∧
    t.mm = s.mm ∧ t.pending = s.pending ∧ t.params = s.params ∧ t.draws = s.draws

/-- R34: recompute runs as the last status-writing statement of each command write and of each queue mutation but the
internal reset's, and of no other operation. After one of those, bits 0, 1, 2 and 7 are the image, and a queue mutation
keeps bits 3 to 6. Every other operation writes exactly this: an internal reset the whole of `STATUS` (R146), CONN_SET DSR
alone (R162), a push dropped by a full RXQ at most OE (R161), and any operation that changes neither queue nothing. So a
recompute in any of them would make the statement false. -/
def Obligations.RecomputeRunsAfterEachMutation : Prop :=
  ∀ (i : Instr) (s t : State), exec i s = .next t →
    ((∀ v, i ≠ .wrIr v) → (t.rxq ≠ s.rxq ∨ t.txq ≠ s.txq ∨ ∃ v, i = .wrCmd v) → ImageHolds t) ∧
    ((∀ v, i ≠ .wrIr v) → (t.rxq ≠ s.rxq ∨ t.txq ≠ s.txq) → UpperBitsAre s.status.getLsbD t) ∧
    (∀ v, i = .wrIr v → t.status = s.params.irStatus) ∧
    (∀ c, i = .connSet c → ∀ k, t.status.getLsbD k = if k = 7 then c else s.status.getLsbD k) ∧
    (∀ b, i = .rxPush b → s.rxq.length = s.params.rxCap →
      ∀ k, t.status.getLsbD k = (s.status.getLsbD k || (s.params.overrunSetsOE && decide (k = 4)))) ∧
    (t.rxq = s.rxq → t.txq = s.txq → (∀ v, i ≠ .wrCmd v) → (∀ v, i ≠ .wrIr v) → (∀ c, i ≠ .connSet c) →
      (∀ b, i = .rxPush b → s.rxq.length ≠ s.params.rxCap) → t.status = s.status)

/-- R200: an operation leaves `TRACE` as it is, or appends one hand-off (WR_DATA only), or appends one condition, of a
kind, with an info and in a state that the table of R200 gives, and it does append that one there. An abandoned cycle
appends BusTimeout alone. With it, the table's codes. -/
def Obligations.OperationsRaiseOnlyTheirConditions : Prop :=
  (∀ (i : Instr) (s t : State), exec i s = .next t →
    t.trace = s.trace ∨
    (∃ d dest, i = .wrData d ∧ t.trace = s.trace ++ [.handOff dest d]) ∨
    (∃ c, RaisedBy i s c ∧ t.trace = s.trace ++ [.raised c])) ∧
  (∀ (i : Instr) (s : State) (c : Condition), RaisedBy i s c →
    ∃ t, exec i s = .next t ∧ t.trace = s.trace ++ [.raised c]) ∧
  (∀ (s : State) (w : OpWord),
    (s.abandon w).trace = s.trace ++ [.raised (.busTimeout (wordPort w) (wordDirection w))]) ∧
  (∀ (p : PortClass) (dir : Direction) (q : QueueId) (b : Byte) (r : DiscardReason),
    (Condition.busTimeout p dir).code = 1 ∧ (Condition.invalidRegisterAccess dir).code = 2 ∧
    (Condition.queueOverflow q b).code = 3 ∧ Condition.readNotOperational.code = 4 ∧
    (Condition.writeDiscarded b r).code = 5)

/-! ### What no operation reads -/

/-- R40 (the spec's decision D17): no operation reads `TRACE`. The same operation from a state whose trace has anything
put before it has the same answer, with that put before its trace. -/
def Obligations.TraceIsNeverRead : Prop :=
  ∀ (i : Instr) (s : State) (before : List TraceEvent),
    exec i { s with trace := before ++ s.trace } = mapNext (fun t => { t with trace := before ++ t.trace }) (exec i s)

/-- R22 (the spec's decision D9): no operation reads `MODE`, and only WR_MODE writes it. -/
def Obligations.ModeIsNeverRead : Prop :=
  (∀ (i : Instr) (s : State) (m : Byte), (∀ v, i ≠ .wrMode v) →
    exec i { s with mode := m } = mapNext (fun t => { t with mode := m }) (exec i s)) ∧
  (∀ (v : Byte) (s : State) (m : Byte), exec (.wrMode v) { s with mode := m } = exec (.wrMode v) s)

/-- R24 (the spec's decision D8): of the stored command, no operation reads any bit but TXEN. Two states whose commands
agree in bit 0 give the same answer, but for the command they keep. -/
def Obligations.StoredCommandReadOnlyThroughTxen : Prop :=
  ∀ (i : Instr) (s : State) (c : Byte), c.getLsbD 0 = s.cmd.getLsbD 0 →
    exec i { s with cmd := c } =
      match i with
      | .wrCmd _ => exec i s
      | .wrIr _ => exec i s
      | _ => mapNext (fun t => { t with cmd := c }) (exec i s)

/-! ### Invariants -/

/-- The invariant holds at power-on. -/
def Obligations.PowerOnMeetsInvariant : Prop := BankInv State.reset

/-- Headline (b): every step keeps the invariant, from every state that meets it: the capacities (R37), `CMD[6]` = 0
(R23), TXQ empty outside Operational (R144 (c)), the status consistency with its one window (R41), PE, FE, SYNDET = 0
(R30) and OE = 0 without `OVERRUN_SETS_OE` (R31). -/
def Obligations.StepKeepsInvariant : Prop :=
  ∀ s t : State, BankInv s → step s = .next t → BankInv t

/-- Headline (b), for every value of the parameters: every step keeps the queues within their capacities (R37), from every
state in which they are. -/
def Obligations.StepKeepsQueueCapacities : Prop :=
  ∀ s t : State, s.rxq.length ≤ s.params.rxCap → s.txq.length ≤ s.params.txCap → step s = .next t →
    t.params = s.params ∧ t.rxq.length ≤ t.params.rxCap ∧ t.txq.length ≤ t.params.txCap

/-- R37: every state reachable from power-on, by any inputs in any order, holds at most RX_CAP and TX_CAP bytes, and a push
to a full queue appends nothing and raises QueueOverflow. -/
def Obligations.QueuesNeverExceedCapacity : Prop :=
  (∀ (es : List Input) (p : Config.Params) (t : State), issueAll es (State.powerOn p) = .next t →
    t.rxq.length ≤ t.params.rxCap ∧ t.txq.length ≤ t.params.txCap) ∧
  (∀ (s t : State) (b : Byte), s.rxq.length = s.params.rxCap → exec (.rxPush b) s = .next t →
    t.rxq = s.rxq ∧ t.trace = s.trace ++ [.raised (.queueOverflow .rx b)]) ∧
  (∀ (s t : State) (d : Byte), s.txq.length = s.params.txCap → s.usartState = .operational →
    s.cmd.getLsbD 0 = true → exec (.wrData d) s = .next t →
    t.txq = s.txq ∧ t.trace = s.trace ++ [.raised (.queueOverflow .tx d)])

/-- R41 (the spec's own inference): in every state reachable from power-on, by any inputs in any order, the status bits 0,
1, 2 and 7 are the recompute image or the state is in the window of an internal reset; in Operational they are the
image. -/
def Obligations.ReachableStatusIsConsistent : Prop :=
  ∀ (es : List Input) (p : Config.Params) (t : State), ParamsAsSpec p → issueAll es (State.powerOn p) = .next t →
    (ImageHolds t ∨ InResetWindow t) ∧ (t.usartState = .operational → ImageHolds t)

/-- R31, with `OVERRUN_SETS_OE` (the spec's decision D7): once set, OE stays set across every input but an internal
reset, a command write with ER under the parameter, and power-on. -/
def Obligations.OverrunErrorStaysUntilCleared : Prop :=
  ∀ (e : Input) (s t : State), issue e s = .next t → s.status.getLsbD 4 = true → t.status.getLsbD 4 = false →
    e = .powerOn ∨
    ∃ i, exec i s = .next t ∧
      ((∃ v, i = .wrIr v) ∨ (∃ v, i = .wrCmd v ∧ v.getLsbD 4 = true ∧ s.params.overrunSetsOE = true))

/-- R148 and R241 (the spec's own inference and decision D20): once Reset is left, no run without a power-on comes back to
it. -/
def Obligations.ResetNeverReenteredWithoutPowerOn : Prop :=
  ∀ (es : List Input) (s t : State), s.usartState ≠ .reset → .powerOn ∉ es → issueAll es s = .next t →
    t.usartState ≠ .reset

/-- R38: `CONN` is what the last CONN_SET wrote, and 0 from power-on until the first: over any run, folded over its
inputs. -/
def Obligations.ConnIsLastConnSet : Prop :=
  ∀ (es : List Input) (s t : State), issueAll es s = .next t → t.conn = es.foldl connAfter s.conn

/-! ### Sequences of operations -/

/-- R53 (the spec's own inference): bytes pushed to RXQ are read by the host in the order they were pushed, after the
bytes that were there. -/
def Obligations.ReceivedBytesReadInPushOrder : Prop :=
  ∀ (s : State) (bs : List Byte), s.usartState = .operational → s.rxq.length + bs.length ≤ s.params.rxCap →
    ∃ t, issueAll (bs.map fun b => (AsmLine.bgRxPush b).input) s = .next t ∧
      returnsOf (List.replicate (s.rxq.length + bs.length) AsmLine.inD.input) t = (s.rxq ++ bs).map .toHost

/-- R127 (the spec's own inference): N consecutive data writes that fit are all effective, and the written bytes stand in
TXQ in write order and are each handed off once. TXPOP then returns them in that order (R53). -/
def Obligations.WrittenBytesQueueInWriteOrder : Prop :=
  ∀ (s : State) (ds : List Byte), s.usartState = .operational → s.cmd.getLsbD 0 = true →
    s.txq.length + ds.length ≤ s.params.txCap →
    ∃ t, issueAll (ds.map fun d => (AsmLine.outD d).input) s = .next t ∧ t.txq = s.txq ++ ds ∧
      t.trace = s.trace ++ ds.map (fun d => .handOff (if s.mm = .command then .hayes else .network) d) ∧
      returnsOf (List.replicate (s.txq.length + ds.length) AsmLine.bgTxPop.input) t =
        (s.txq ++ ds).map (fun b => .toBackground (some b))

/-- R248 (the spec's own inference): in Operational with RXRDY = 1, a data read that is the next HOST operation returns the
head RXQ had, whatever background calls and modem-mode changes came in between. -/
def Obligations.GuardedReadReturnsHead : Prop :=
  ∀ (s t : State) (es : List Input), BankInv s → s.usartState = .operational → s.status.getLsbD 1 = true →
    (∀ e ∈ es, e.notHost = true) → issueAll es s = .next t →
    ∃ b u, s.rxq.head? = some b ∧ issue AsmLine.inD.input t = .next u ∧ u.returned = .toHost b ∧ t.rxq = b :: u.rxq

/-- R250 (the spec's own inference): in Operational with TXRDY = 1, a data write that is the next HOST operation is
effective, whatever background calls and modem-mode changes came in between: its byte is queued and handed off. -/
def Obligations.GuardedWriteIsEffective : Prop :=
  ∀ (s t : State) (es : List Input) (d : Byte), BankInv s → s.usartState = .operational → s.status.getLsbD 0 = true →
    (∀ e ∈ es, e.notHost = true) → issueAll es s = .next t →
    WriteEffective t ∧ ∃ u, issue (AsmLine.outD d).input t = .next u ∧ u.txq = t.txq ++ [d] ∧
      u.trace = t.trace ++ [.handOff (if t.mm = .command then .hayes else .network) d]

/-- R246 (the spec's own inference; from CommandInstruction it rests on decision D4): two control writes of bytes with bit
6 set end in the internal-reset state, from every state. -/
def Obligations.TwoResetBytesReachInternalResetState : Prop :=
  ∀ (s : State) (v v' : Byte), v.getLsbD 6 = true → v'.getLsbD 6 = true →
    ∃ t, issueAll [(AsmLine.outC v).input, (AsmLine.outC v').input] s = .next t ∧
      t.usartState = .modeInstruction ∧ t.cmd = 0x00#8 ∧ t.status = s.params.irStatus ∧ t.rxq = [] ∧ t.txq = [] ∧
      t.conn = s.conn

/-- R82 and R245 (the spec's own notation D25 and inference): SETUP from Reset and RESETUP from ModeInstruction, with bit 6
of the command clear, reach Operational with `CMD` = k, and IRESET is an internal reset in a state other than Reset. -/
def Obligations.PseudoInstructionsReachTheirState : Prop :=
  (∀ (s : State) (m k : Byte), s.usartState = .reset → k.getLsbD 6 = false →
    ∃ t, issueAll (Pseudo.setup m k).inputs s = .next t ∧ t.usartState = .operational ∧ t.mode = m ∧ t.cmd = k ∧
      t.rxq = s.rxq ∧ t.txq = s.txq ∧ ImageHolds t) ∧
  (∀ (s : State) (k : Byte), s.usartState = .modeInstruction → k.getLsbD 6 = false →
    ∃ t, issueAll (Pseudo.resetup k).inputs s = .next t ∧ t.usartState = .operational ∧ t.mode = s.mode ∧ t.cmd = k ∧
      t.rxq = s.rxq ∧ t.txq = s.txq ∧ ImageHolds t) ∧
  (∀ s : State, s.usartState ≠ .reset →
    issueAll Pseudo.ireset.inputs s = .next { s with
      usartState := .modeInstruction, cmd := 0x00#8, status := s.params.irStatus, rxq := [], txq := [],
      returned := .nothing })

/-- R249 and R247 (the spec's own inferences): directly after an internal reset the host reads TXRDY = TXE = 1 and DSR = 0
even with a Connection, yet a data write is discarded: it changes no register and no queue and hands nothing off. -/
def Obligations.TxrdyAfterInternalResetPromisesNothing : Prop :=
  ∀ (s : State) (d : Byte), s.usartState ≠ .reset → s.params.irStatus = 0x05#8 →
    ∃ t, issueAll [(AsmLine.outC 0x40#8).input, AsmLine.inC.input, (AsmLine.outD d).input] s = .next t ∧
      returnsOf [(AsmLine.outC 0x40#8).input, AsmLine.inC.input] s = [.nothing, .toHost 0x05#8] ∧
      t.usartState = .modeInstruction ∧ t.cmd = 0x00#8 ∧ t.status = 0x05#8 ∧ t.rxq = [] ∧ t.txq = [] ∧
      t.conn = s.conn ∧ t.trace = s.trace ++ [.raised (.writeDiscarded d .notOperational)]

/-- R151 (the spec's own inference): after an internal reset, one command write is not enough: a data write is still
discarded and a data read still returns the sentinel; after the second they take effect. -/
def Obligations.TwoCommandWritesReachOperational : Prop :=
  ∀ (s : State) (k k' : Byte), s.usartState = .modeInstruction → k.getLsbD 6 = false → k'.getLsbD 6 = false →
    ∃ t u, issueAll [(AsmLine.outC k).input] s = .next t ∧ t.usartState = .commandInstruction ∧
      (∀ d t', issue (AsmLine.outD d).input t = .next t' → t'.txq = t.txq) ∧
      (∀ t', issue AsmLine.inD.input t = .next t' → t'.returned = .toHost s.params.sentinel ∧ t'.rxq = t.rxq) ∧
      issueAll [(AsmLine.outC k').input] t = .next u ∧ u.usartState = .operational ∧ u.cmd = k' ∧ u.rxq = s.rxq

/-- R121 corner case (f) (the spec's own inference): in Operational, the recompute after a pop changes RXRDY and no other
status bit. -/
def Obligations.PopChangesRxrdyOnly : Prop :=
  ∀ (s t : State), BankInv s → s.usartState = .operational → s.rxq ≠ [] → exec .rdData s = .next t →
    t.status.getLsbD 1 = decide (t.rxq ≠ []) ∧ ∀ k, k ≠ 1 → t.status.getLsbD k = s.status.getLsbD k

/-- R144 corner case (c) and R149 (the spec's own inferences): a command write that enters Operational leaves TXE and TXRDY
equal to its bit 0, and one in Operational with bit 0 set and TXQ not full leaves TXRDY = 1. -/
def Obligations.TxFlagsAfterCommandWrite : Prop :=
  (∀ (s t : State) (v : Byte), BankInv s → s.usartState = .commandInstruction → exec (.wrCmd v) s = .next t →
    t.status.getLsbD 2 = v.getLsbD 0 ∧ t.status.getLsbD 0 = v.getLsbD 0) ∧
  (∀ (s t : State) (v : Byte), exec (.wrCmd v) s = .next t → v.getLsbD 0 = true → s.txq.length < s.params.txCap →
    t.status.getLsbD 0 = true)

/-- R126 and R123 (the spec's own inferences): an effective data write leaves TXE = 0 and TXRDY = 1 exactly when TXQ still
has room, so TXRDY stays 1 across effective writes until TXQ is full. -/
def Obligations.TxrdyAfterEffectiveWrite : Prop :=
  ∀ (s : State) (d : Byte), WriteEffective s →
    ∃ t, exec (.wrData d) s = .next t ∧ t.status.getLsbD 2 = false ∧
      t.status.getLsbD 0 = decide (s.txq.length + 1 < s.params.txCap)
end

