-- ==== Sys2Proof/Laws/State.lean ====
section
/-! SUPPORT. One lemma per field per update of State, each true by unfolding the update. -/

namespace Sys2Proof.Machine.State

variable (s : State)

@[simp] theorem withUsartState_usartState (v : UsartState) : (s.withUsartState v).usartState = v := rfl
@[simp] theorem withUsartState_mode (v : UsartState) : (s.withUsartState v).mode = s.mode := rfl
@[simp] theorem withUsartState_cmd (v : UsartState) : (s.withUsartState v).cmd = s.cmd := rfl
@[simp] theorem withUsartState_status (v : UsartState) : (s.withUsartState v).status = s.status := rfl
@[simp] theorem withUsartState_rxq (v : UsartState) : (s.withUsartState v).rxq = s.rxq := rfl
@[simp] theorem withUsartState_txq (v : UsartState) : (s.withUsartState v).txq = s.txq := rfl
@[simp] theorem withUsartState_conn (v : UsartState) : (s.withUsartState v).conn = s.conn := rfl
@[simp] theorem withUsartState_trace (v : UsartState) : (s.withUsartState v).trace = s.trace := rfl
@[simp] theorem withUsartState_mm (v : UsartState) : (s.withUsartState v).mm = s.mm := rfl
@[simp] theorem withUsartState_pending (v : UsartState) : (s.withUsartState v).pending = s.pending := rfl
@[simp] theorem withUsartState_returned (v : UsartState) : (s.withUsartState v).returned = s.returned := rfl
@[simp] theorem withUsartState_params (v : UsartState) : (s.withUsartState v).params = s.params := rfl
@[simp] theorem withUsartState_draws (v : UsartState) : (s.withUsartState v).draws = s.draws := rfl

@[simp] theorem withMode_usartState (v : Byte) : (s.withMode v).usartState = s.usartState := rfl
@[simp] theorem withMode_mode (v : Byte) : (s.withMode v).mode = v := rfl
@[simp] theorem withMode_cmd (v : Byte) : (s.withMode v).cmd = s.cmd := rfl
@[simp] theorem withMode_status (v : Byte) : (s.withMode v).status = s.status := rfl
@[simp] theorem withMode_rxq (v : Byte) : (s.withMode v).rxq = s.rxq := rfl
@[simp] theorem withMode_txq (v : Byte) : (s.withMode v).txq = s.txq := rfl
@[simp] theorem withMode_conn (v : Byte) : (s.withMode v).conn = s.conn := rfl
@[simp] theorem withMode_trace (v : Byte) : (s.withMode v).trace = s.trace := rfl
@[simp] theorem withMode_mm (v : Byte) : (s.withMode v).mm = s.mm := rfl
@[simp] theorem withMode_pending (v : Byte) : (s.withMode v).pending = s.pending := rfl
@[simp] theorem withMode_returned (v : Byte) : (s.withMode v).returned = s.returned := rfl
@[simp] theorem withMode_params (v : Byte) : (s.withMode v).params = s.params := rfl
@[simp] theorem withMode_draws (v : Byte) : (s.withMode v).draws = s.draws := rfl

@[simp] theorem withCmd_usartState (v : Byte) : (s.withCmd v).usartState = s.usartState := rfl
@[simp] theorem withCmd_mode (v : Byte) : (s.withCmd v).mode = s.mode := rfl
@[simp] theorem withCmd_cmd (v : Byte) : (s.withCmd v).cmd = v := rfl
@[simp] theorem withCmd_status (v : Byte) : (s.withCmd v).status = s.status := rfl
@[simp] theorem withCmd_rxq (v : Byte) : (s.withCmd v).rxq = s.rxq := rfl
@[simp] theorem withCmd_txq (v : Byte) : (s.withCmd v).txq = s.txq := rfl
@[simp] theorem withCmd_conn (v : Byte) : (s.withCmd v).conn = s.conn := rfl
@[simp] theorem withCmd_trace (v : Byte) : (s.withCmd v).trace = s.trace := rfl
@[simp] theorem withCmd_mm (v : Byte) : (s.withCmd v).mm = s.mm := rfl
@[simp] theorem withCmd_pending (v : Byte) : (s.withCmd v).pending = s.pending := rfl
@[simp] theorem withCmd_returned (v : Byte) : (s.withCmd v).returned = s.returned := rfl
@[simp] theorem withCmd_params (v : Byte) : (s.withCmd v).params = s.params := rfl
@[simp] theorem withCmd_draws (v : Byte) : (s.withCmd v).draws = s.draws := rfl

@[simp] theorem withStatus_usartState (v : Byte) : (s.withStatus v).usartState = s.usartState := rfl
@[simp] theorem withStatus_mode (v : Byte) : (s.withStatus v).mode = s.mode := rfl
@[simp] theorem withStatus_cmd (v : Byte) : (s.withStatus v).cmd = s.cmd := rfl
@[simp] theorem withStatus_status (v : Byte) : (s.withStatus v).status = v := rfl
@[simp] theorem withStatus_rxq (v : Byte) : (s.withStatus v).rxq = s.rxq := rfl
@[simp] theorem withStatus_txq (v : Byte) : (s.withStatus v).txq = s.txq := rfl
@[simp] theorem withStatus_conn (v : Byte) : (s.withStatus v).conn = s.conn := rfl
@[simp] theorem withStatus_trace (v : Byte) : (s.withStatus v).trace = s.trace := rfl
@[simp] theorem withStatus_mm (v : Byte) : (s.withStatus v).mm = s.mm := rfl
@[simp] theorem withStatus_pending (v : Byte) : (s.withStatus v).pending = s.pending := rfl
@[simp] theorem withStatus_returned (v : Byte) : (s.withStatus v).returned = s.returned := rfl
@[simp] theorem withStatus_params (v : Byte) : (s.withStatus v).params = s.params := rfl
@[simp] theorem withStatus_draws (v : Byte) : (s.withStatus v).draws = s.draws := rfl

@[simp] theorem withRxq_usartState (q : List Byte) : (s.withRxq q).usartState = s.usartState := rfl
@[simp] theorem withRxq_mode (q : List Byte) : (s.withRxq q).mode = s.mode := rfl
@[simp] theorem withRxq_cmd (q : List Byte) : (s.withRxq q).cmd = s.cmd := rfl
@[simp] theorem withRxq_status (q : List Byte) : (s.withRxq q).status = s.status := rfl
@[simp] theorem withRxq_rxq (q : List Byte) : (s.withRxq q).rxq = q := rfl
@[simp] theorem withRxq_txq (q : List Byte) : (s.withRxq q).txq = s.txq := rfl
@[simp] theorem withRxq_conn (q : List Byte) : (s.withRxq q).conn = s.conn := rfl
@[simp] theorem withRxq_trace (q : List Byte) : (s.withRxq q).trace = s.trace := rfl
@[simp] theorem withRxq_mm (q : List Byte) : (s.withRxq q).mm = s.mm := rfl
@[simp] theorem withRxq_pending (q : List Byte) : (s.withRxq q).pending = s.pending := rfl
@[simp] theorem withRxq_returned (q : List Byte) : (s.withRxq q).returned = s.returned := rfl
@[simp] theorem withRxq_params (q : List Byte) : (s.withRxq q).params = s.params := rfl
@[simp] theorem withRxq_draws (q : List Byte) : (s.withRxq q).draws = s.draws := rfl

@[simp] theorem withTxq_usartState (q : List Byte) : (s.withTxq q).usartState = s.usartState := rfl
@[simp] theorem withTxq_mode (q : List Byte) : (s.withTxq q).mode = s.mode := rfl
@[simp] theorem withTxq_cmd (q : List Byte) : (s.withTxq q).cmd = s.cmd := rfl
@[simp] theorem withTxq_status (q : List Byte) : (s.withTxq q).status = s.status := rfl
@[simp] theorem withTxq_rxq (q : List Byte) : (s.withTxq q).rxq = s.rxq := rfl
@[simp] theorem withTxq_txq (q : List Byte) : (s.withTxq q).txq = q := rfl
@[simp] theorem withTxq_conn (q : List Byte) : (s.withTxq q).conn = s.conn := rfl
@[simp] theorem withTxq_trace (q : List Byte) : (s.withTxq q).trace = s.trace := rfl
@[simp] theorem withTxq_mm (q : List Byte) : (s.withTxq q).mm = s.mm := rfl
@[simp] theorem withTxq_pending (q : List Byte) : (s.withTxq q).pending = s.pending := rfl
@[simp] theorem withTxq_returned (q : List Byte) : (s.withTxq q).returned = s.returned := rfl
@[simp] theorem withTxq_params (q : List Byte) : (s.withTxq q).params = s.params := rfl
@[simp] theorem withTxq_draws (q : List Byte) : (s.withTxq q).draws = s.draws := rfl

@[simp] theorem withConn_usartState (c : Bool) : (s.withConn c).usartState = s.usartState := rfl
@[simp] theorem withConn_mode (c : Bool) : (s.withConn c).mode = s.mode := rfl
@[simp] theorem withConn_cmd (c : Bool) : (s.withConn c).cmd = s.cmd := rfl
@[simp] theorem withConn_status (c : Bool) : (s.withConn c).status = s.status := rfl
@[simp] theorem withConn_rxq (c : Bool) : (s.withConn c).rxq = s.rxq := rfl
@[simp] theorem withConn_txq (c : Bool) : (s.withConn c).txq = s.txq := rfl
@[simp] theorem withConn_conn (c : Bool) : (s.withConn c).conn = c := rfl
@[simp] theorem withConn_trace (c : Bool) : (s.withConn c).trace = s.trace := rfl
@[simp] theorem withConn_mm (c : Bool) : (s.withConn c).mm = s.mm := rfl
@[simp] theorem withConn_pending (c : Bool) : (s.withConn c).pending = s.pending := rfl
@[simp] theorem withConn_returned (c : Bool) : (s.withConn c).returned = s.returned := rfl
@[simp] theorem withConn_params (c : Bool) : (s.withConn c).params = s.params := rfl
@[simp] theorem withConn_draws (c : Bool) : (s.withConn c).draws = s.draws := rfl

@[simp] theorem withMm_usartState (m : ModemMode) : (s.withMm m).usartState = s.usartState := rfl
@[simp] theorem withMm_mode (m : ModemMode) : (s.withMm m).mode = s.mode := rfl
@[simp] theorem withMm_cmd (m : ModemMode) : (s.withMm m).cmd = s.cmd := rfl
@[simp] theorem withMm_status (m : ModemMode) : (s.withMm m).status = s.status := rfl
@[simp] theorem withMm_rxq (m : ModemMode) : (s.withMm m).rxq = s.rxq := rfl
@[simp] theorem withMm_txq (m : ModemMode) : (s.withMm m).txq = s.txq := rfl
@[simp] theorem withMm_conn (m : ModemMode) : (s.withMm m).conn = s.conn := rfl
@[simp] theorem withMm_trace (m : ModemMode) : (s.withMm m).trace = s.trace := rfl
@[simp] theorem withMm_mm (m : ModemMode) : (s.withMm m).mm = m := rfl
@[simp] theorem withMm_pending (m : ModemMode) : (s.withMm m).pending = s.pending := rfl
@[simp] theorem withMm_returned (m : ModemMode) : (s.withMm m).returned = s.returned := rfl
@[simp] theorem withMm_params (m : ModemMode) : (s.withMm m).params = s.params := rfl
@[simp] theorem withMm_draws (m : ModemMode) : (s.withMm m).draws = s.draws := rfl

@[simp] theorem withPending_usartState (l : List Input) : (s.withPending l).usartState = s.usartState := rfl
@[simp] theorem withPending_mode (l : List Input) : (s.withPending l).mode = s.mode := rfl
@[simp] theorem withPending_cmd (l : List Input) : (s.withPending l).cmd = s.cmd := rfl
@[simp] theorem withPending_status (l : List Input) : (s.withPending l).status = s.status := rfl
@[simp] theorem withPending_rxq (l : List Input) : (s.withPending l).rxq = s.rxq := rfl
@[simp] theorem withPending_txq (l : List Input) : (s.withPending l).txq = s.txq := rfl
@[simp] theorem withPending_conn (l : List Input) : (s.withPending l).conn = s.conn := rfl
@[simp] theorem withPending_trace (l : List Input) : (s.withPending l).trace = s.trace := rfl
@[simp] theorem withPending_mm (l : List Input) : (s.withPending l).mm = s.mm := rfl
@[simp] theorem withPending_pending (l : List Input) : (s.withPending l).pending = l := rfl
@[simp] theorem withPending_returned (l : List Input) : (s.withPending l).returned = s.returned := rfl
@[simp] theorem withPending_params (l : List Input) : (s.withPending l).params = s.params := rfl
@[simp] theorem withPending_draws (l : List Input) : (s.withPending l).draws = s.draws := rfl

@[simp] theorem withReturned_usartState (r : Returned) : (s.withReturned r).usartState = s.usartState := rfl
@[simp] theorem withReturned_mode (r : Returned) : (s.withReturned r).mode = s.mode := rfl
@[simp] theorem withReturned_cmd (r : Returned) : (s.withReturned r).cmd = s.cmd := rfl
@[simp] theorem withReturned_status (r : Returned) : (s.withReturned r).status = s.status := rfl
@[simp] theorem withReturned_rxq (r : Returned) : (s.withReturned r).rxq = s.rxq := rfl
@[simp] theorem withReturned_txq (r : Returned) : (s.withReturned r).txq = s.txq := rfl
@[simp] theorem withReturned_conn (r : Returned) : (s.withReturned r).conn = s.conn := rfl
@[simp] theorem withReturned_trace (r : Returned) : (s.withReturned r).trace = s.trace := rfl
@[simp] theorem withReturned_mm (r : Returned) : (s.withReturned r).mm = s.mm := rfl
@[simp] theorem withReturned_pending (r : Returned) : (s.withReturned r).pending = s.pending := rfl
@[simp] theorem withReturned_returned (r : Returned) : (s.withReturned r).returned = r := rfl
@[simp] theorem withReturned_params (r : Returned) : (s.withReturned r).params = s.params := rfl
@[simp] theorem withReturned_draws (r : Returned) : (s.withReturned r).draws = s.draws := rfl

@[simp] theorem countDraw_usartState : s.countDraw.usartState = s.usartState := rfl
@[simp] theorem countDraw_mode : s.countDraw.mode = s.mode := rfl
@[simp] theorem countDraw_cmd : s.countDraw.cmd = s.cmd := rfl
@[simp] theorem countDraw_status : s.countDraw.status = s.status := rfl
@[simp] theorem countDraw_rxq : s.countDraw.rxq = s.rxq := rfl
@[simp] theorem countDraw_txq : s.countDraw.txq = s.txq := rfl
@[simp] theorem countDraw_conn : s.countDraw.conn = s.conn := rfl
@[simp] theorem countDraw_trace : s.countDraw.trace = s.trace := rfl
@[simp] theorem countDraw_mm : s.countDraw.mm = s.mm := rfl
@[simp] theorem countDraw_pending : s.countDraw.pending = s.pending := rfl
@[simp] theorem countDraw_returned : s.countDraw.returned = s.returned := rfl
@[simp] theorem countDraw_params : s.countDraw.params = s.params := rfl
@[simp] theorem countDraw_draws : s.countDraw.draws = s.draws + 1 := rfl

@[simp] theorem record_usartState (e : TraceEvent) : (s.record e).usartState = s.usartState := rfl
@[simp] theorem record_mode (e : TraceEvent) : (s.record e).mode = s.mode := rfl
@[simp] theorem record_cmd (e : TraceEvent) : (s.record e).cmd = s.cmd := rfl
@[simp] theorem record_status (e : TraceEvent) : (s.record e).status = s.status := rfl
@[simp] theorem record_rxq (e : TraceEvent) : (s.record e).rxq = s.rxq := rfl
@[simp] theorem record_txq (e : TraceEvent) : (s.record e).txq = s.txq := rfl
@[simp] theorem record_conn (e : TraceEvent) : (s.record e).conn = s.conn := rfl
@[simp] theorem record_trace (e : TraceEvent) : (s.record e).trace = s.trace ++ [e] := rfl
@[simp] theorem record_mm (e : TraceEvent) : (s.record e).mm = s.mm := rfl
@[simp] theorem record_pending (e : TraceEvent) : (s.record e).pending = s.pending := rfl
@[simp] theorem record_returned (e : TraceEvent) : (s.record e).returned = s.returned := rfl
@[simp] theorem record_params (e : TraceEvent) : (s.record e).params = s.params := rfl
@[simp] theorem record_draws (e : TraceEvent) : (s.record e).draws = s.draws := rfl

@[simp] theorem raise_usartState (c : Condition) : (s.raise c).usartState = s.usartState := rfl
@[simp] theorem raise_mode (c : Condition) : (s.raise c).mode = s.mode := rfl
@[simp] theorem raise_cmd (c : Condition) : (s.raise c).cmd = s.cmd := rfl
@[simp] theorem raise_status (c : Condition) : (s.raise c).status = s.status := rfl
@[simp] theorem raise_rxq (c : Condition) : (s.raise c).rxq = s.rxq := rfl
@[simp] theorem raise_txq (c : Condition) : (s.raise c).txq = s.txq := rfl
@[simp] theorem raise_conn (c : Condition) : (s.raise c).conn = s.conn := rfl
@[simp] theorem raise_trace (c : Condition) : (s.raise c).trace = s.trace ++ [.raised c] := rfl
@[simp] theorem raise_mm (c : Condition) : (s.raise c).mm = s.mm := rfl
@[simp] theorem raise_pending (c : Condition) : (s.raise c).pending = s.pending := rfl
@[simp] theorem raise_returned (c : Condition) : (s.raise c).returned = s.returned := rfl
@[simp] theorem raise_params (c : Condition) : (s.raise c).params = s.params := rfl
@[simp] theorem raise_draws (c : Condition) : (s.raise c).draws = s.draws := rfl

@[simp] theorem recompute_usartState : s.recompute.usartState = s.usartState := rfl
@[simp] theorem recompute_mode : s.recompute.mode = s.mode := rfl
@[simp] theorem recompute_cmd : s.recompute.cmd = s.cmd := rfl
@[simp] theorem recompute_status : s.recompute.status = recomputedStatus s := rfl
@[simp] theorem recompute_rxq : s.recompute.rxq = s.rxq := rfl
@[simp] theorem recompute_txq : s.recompute.txq = s.txq := rfl
@[simp] theorem recompute_conn : s.recompute.conn = s.conn := rfl
@[simp] theorem recompute_trace : s.recompute.trace = s.trace := rfl
@[simp] theorem recompute_mm : s.recompute.mm = s.mm := rfl
@[simp] theorem recompute_pending : s.recompute.pending = s.pending := rfl
@[simp] theorem recompute_returned : s.recompute.returned = s.returned := rfl
@[simp] theorem recompute_params : s.recompute.params = s.params := rfl
@[simp] theorem recompute_draws : s.recompute.draws = s.draws := rfl

@[simp] theorem erClear_usartState (v : Byte) : (s.erClear v).usartState = s.usartState := rfl
@[simp] theorem erClear_mode (v : Byte) : (s.erClear v).mode = s.mode := rfl
@[simp] theorem erClear_cmd (v : Byte) : (s.erClear v).cmd = s.cmd := rfl
@[simp] theorem erClear_status (v : Byte) : (s.erClear v).status = erClearedStatus s.params.overrunSetsOE v s.status := rfl
@[simp] theorem erClear_rxq (v : Byte) : (s.erClear v).rxq = s.rxq := rfl
@[simp] theorem erClear_txq (v : Byte) : (s.erClear v).txq = s.txq := rfl
@[simp] theorem erClear_conn (v : Byte) : (s.erClear v).conn = s.conn := rfl
@[simp] theorem erClear_trace (v : Byte) : (s.erClear v).trace = s.trace := rfl
@[simp] theorem erClear_mm (v : Byte) : (s.erClear v).mm = s.mm := rfl
@[simp] theorem erClear_pending (v : Byte) : (s.erClear v).pending = s.pending := rfl
@[simp] theorem erClear_returned (v : Byte) : (s.erClear v).returned = s.returned := rfl
@[simp] theorem erClear_params (v : Byte) : (s.erClear v).params = s.params := rfl
@[simp] theorem erClear_draws (v : Byte) : (s.erClear v).draws = s.draws := rfl

@[simp] theorem handOff_usartState (d : HandOffDest) (b : Byte) : (s.handOff d b).usartState = s.usartState := rfl
@[simp] theorem handOff_mode (d : HandOffDest) (b : Byte) : (s.handOff d b).mode = s.mode := rfl
@[simp] theorem handOff_cmd (d : HandOffDest) (b : Byte) : (s.handOff d b).cmd = s.cmd := rfl
@[simp] theorem handOff_status (d : HandOffDest) (b : Byte) : (s.handOff d b).status = s.status := rfl
@[simp] theorem handOff_rxq (d : HandOffDest) (b : Byte) : (s.handOff d b).rxq = s.rxq := rfl
@[simp] theorem handOff_txq (d : HandOffDest) (b : Byte) : (s.handOff d b).txq = s.txq := rfl
@[simp] theorem handOff_conn (d : HandOffDest) (b : Byte) : (s.handOff d b).conn = s.conn := rfl
@[simp] theorem handOff_trace (d : HandOffDest) (b : Byte) : (s.handOff d b).trace = s.trace ++ [.handOff d b] := rfl
@[simp] theorem handOff_mm (d : HandOffDest) (b : Byte) : (s.handOff d b).mm = s.mm := rfl
@[simp] theorem handOff_pending (d : HandOffDest) (b : Byte) : (s.handOff d b).pending = s.pending := rfl
@[simp] theorem handOff_returned (d : HandOffDest) (b : Byte) : (s.handOff d b).returned = s.returned := rfl
@[simp] theorem handOff_params (d : HandOffDest) (b : Byte) : (s.handOff d b).params = s.params := rfl
@[simp] theorem handOff_draws (d : HandOffDest) (b : Byte) : (s.handOff d b).draws = s.draws := rfl

end Sys2Proof.Machine.State
end

