-- ==== Sys2Proof/Laws/Flags.lean ====
section
/-! SUPPORT. What the status computations do, bit by bit. -/

namespace Sys2Proof.Machine

/-- Writing a bit of a byte changes that bit and no other (R11). -/
theorem getLsbD_setBit (v : Byte) (i j : Nat) (b : Bool) (hi : i < 8) :
    (setBit v i b).getLsbD j = if j = i then b else v.getLsbD j := by
  unfold setBit
  by_cases hji : j = i
  · subst hji
    cases b <;> simp [hi]
  · by_cases hj : j < 8
    · by_cases hlt : j < i
      · cases b <;> simp [hji, hlt, hj]
      · have h0 : j - i ≠ 0 := by omega
        cases b <;> simp [hji, hlt, hj, h0]
    · have hv : v.getLsbD j = false := BitVec.getLsbD_of_ge v j (by omega)
      cases b <;> simp [hji, hj, hv]

/-- Two bytes with the same eight bits are equal. -/
theorem byte_ext (x y : Byte) (h : ∀ k, x.getLsbD k = y.getLsbD k) : x = y :=
  BitVec.eq_of_getLsbD_eq fun k _ => h k

/-- The status `recompute()` leaves, bit by bit (R33). -/
theorem getLsbD_recomputedStatus (s : State) (k : Nat) :
    (recomputedStatus s).getLsbD k =
      if k = 7 then s.conn
      else if k = 2 then s.cmd.getLsbD 0 && decide (s.txq = [])
      else if k = 1 then decide (s.rxq ≠ [])
      else if k = 0 then s.cmd.getLsbD 0 && decide (s.txq.length < s.params.txCap)
      else s.status.getLsbD k := by
  simp (disch := decide) only [recomputedStatus, getLsbD_setBit, txrdyValue, rxrdyValue, txeValue, cmdTxen,
    List.length_pos_iff, List.length_eq_zero_iff]

/-- The status `er_clear(v)` leaves, bit by bit (R147). -/
theorem getLsbD_erClearedStatus (on : Bool) (v status : Byte) (k : Nat) :
    (erClearedStatus on v status).getLsbD k =
      (status.getLsbD k && !(on && v.getLsbD 4 && decide (k = 3 ∨ k = 4 ∨ k = 5))) := by
  unfold erClearedStatus cmdEr
  cases h : on && v.getLsbD 4
  · simp
  · simp (disch := decide) only [getLsbD_setBit, if_true]
    by_cases h3 : k = 3 <;> by_cases h4 : k = 4 <;> by_cases h5 : k = 5 <;> simp [h3, h4, h5]

/-- The data write's own clear, bit by bit (R124). -/
theorem getLsbD_txFlagsCleared (status : Byte) (k : Nat) :
    (txFlagsCleared status).getLsbD k = (status.getLsbD k && !decide (k = 0 ∨ k = 2)) := by
  simp (disch := decide) only [txFlagsCleared, getLsbD_setBit]
  by_cases h0 : k = 0 <;> by_cases h2 : k = 2 <;> simp [h0, h2]

/-- Setting OE changes OE only (R161). -/
theorem getLsbD_setOe (status : Byte) (k : Nat) :
    (setBit status oeBit true).getLsbD k = (status.getLsbD k || decide (k = 4)) := by
  simp (disch := decide) only [getLsbD_setBit]
  by_cases h : k = 4 <;> simp [h]

end Sys2Proof.Machine
end

