-- ==== Sys2Proof/Laws/Ops.lean ====
section
/-! SUPPORT. What each shared operation does, once: the later proofs cite these and unfold no operation. -/

namespace Sys2Proof.Machine

/-- A recompute leaves the image in bits 0, 1, 2 and 7 and keeps bits 3 to 6 (R33). -/
theorem recompute_recomputedFrom (s : State) : RecomputedFrom s.status s.recompute := by
  refine ⟨⟨?_, ?_, ?_, ?_⟩, fun i h3 h6 => ?_⟩
  · simp only [State.recompute_status, getLsbD_recomputedStatus]; rfl
  · simp only [State.recompute_status, getLsbD_recomputedStatus]; rfl
  · simp only [State.recompute_status, getLsbD_recomputedStatus]; rfl
  · simp only [State.recompute_status, getLsbD_recomputedStatus]; rfl
  · have h : i ≠ 7 ∧ i ≠ 2 ∧ i ≠ 1 ∧ i ≠ 0 := by omega
    simp only [State.recompute_status, getLsbD_recomputedStatus, h, if_false]

/-- An RX push: the byte at the tail, then the recompute (R160). -/
theorem pushRx_spec (s : State) (b : Byte) :
    RecomputedFrom s.status (s.pushRx b) ∧
      s.pushRx b = { s with rxq := s.rxq ++ [b], status := (s.pushRx b).status } :=
  ⟨recompute_recomputedFrom (s.withRxq (s.rxq ++ [b])), rfl⟩

/-- What is left of RXQ after a pop, then the recompute (R121). -/
theorem dropRx_spec (s : State) (rest : List Byte) :
    RecomputedFrom s.status (s.dropRx rest) ∧ s.dropRx rest = { s with rxq := rest, status := (s.dropRx rest).status } :=
  ⟨recompute_recomputedFrom (s.withRxq rest), rfl⟩

/-- What is left of TXQ after a pop, then the recompute (R163). -/
theorem dropTx_spec (s : State) (rest : List Byte) :
    RecomputedFrom s.status (s.dropTx rest) ∧ s.dropTx rest = { s with txq := rest, status := (s.dropTx rest).status } :=
  ⟨recompute_recomputedFrom (s.withTxq rest), rfl⟩

/-- A TX push: the byte at the tail; the explicit clear of TXRDY and TXE is overwritten by the recompute (R124, R126). -/
theorem pushTx_spec (s : State) (d : Byte) :
    RecomputedFrom s.status (s.pushTx d) ∧
      s.pushTx d = { s with txq := s.txq ++ [d], status := (s.pushTx d).status } := by
  refine ⟨⟨(recompute_recomputedFrom _).1, fun i h3 h6 => ?_⟩, rfl⟩
  rw [show (s.pushTx d).status.getLsbD i = (txFlagsCleared s.status).getLsbD i from
    (recompute_recomputedFrom _).2 i h3 h6, getLsbD_txFlagsCleared]
  have h : ¬ (i = 0 ∨ i = 2) := by omega
  simp [h]

/-- An RX overflow: QueueOverflow(RX), and OE under the parameter (R161). -/
theorem overflowRx_spec (s : State) (b : Byte) :
    (∀ k, (s.overflowRx b).status.getLsbD k =
      (s.status.getLsbD k || (s.params.overrunSetsOE && decide (k = 4)))) ∧
    s.overflowRx b = { s with
      status := (s.overflowRx b).status, trace := s.trace ++ [.raised (.queueOverflow .rx b)] } := by
  unfold State.overflowRx
  cases s.params.overrunSetsOE
  · exact ⟨fun k => by simp, rfl⟩
  · exact ⟨fun k => by simpa using getLsbD_setOe s.status k, rfl⟩

/-- A command write: store, ER clear, next `STATE`, recompute (R143, R144, R145, R147). -/
theorem storeCommand_spec (s : State) (v : Byte) (next : UsartState) :
    ImageHolds (s.storeCommand v next) ∧
    UpperBitsAre
      (fun k => s.status.getLsbD k && !(s.params.overrunSetsOE && v.getLsbD 4 && decide (k ≠ 6)))
      (s.storeCommand v next) ∧
    s.storeCommand v next =
      { s with cmd := v, usartState := next, status := (s.storeCommand v next).status } := by
  refine ⟨(recompute_recomputedFrom _).1, fun i h3 h6 => ?_, rfl⟩
  rw [show (s.storeCommand v next).status.getLsbD i =
    (erClearedStatus s.params.overrunSetsOE v s.status).getLsbD i from
    (recompute_recomputedFrom _).2 i h3 h6, getLsbD_erClearedStatus]
  have h : (i = 3 ∨ i = 4 ∨ i = 5) ↔ i ≠ 6 := by omega
  simp only [h]

/-- The internal reset, field by field (R146). -/
theorem internalReset_eq (s : State) :
    s.internalReset = { s with
      usartState := .modeInstruction, cmd := 0x00#8, status := s.params.irStatus, rxq := [], txq := [] } := rfl

/-- Writing DSR changes bit 7 only (R162). -/
theorem getLsbD_setDsr (status : Byte) (c : Bool) (k : Nat) :
    (setBit status dsrBit c).getLsbD k = if k = 7 then c else status.getLsbD k :=
  getLsbD_setBit status 7 k c (by decide)

end Sys2Proof.Machine
end

