-- ==== Sys2Proof/Laws/Meanings.lean ====
section
/-! SUPPORT. Inversion: if a meaning answers a next state, then one of these cases holds. Every meaning that cannot refuse
has its next state in closed form. -/

namespace Sys2Proof.Machine

/-- RD_DATA's three cases (R121). -/
theorem execRdData_next {s t : State} (h : execRdData s = .next t) :
    (s.usartState ≠ .operational ∧ t = (s.raise .readNotOperational).withReturned (.toHost s.params.sentinel)) ∨
    (s.usartState = .operational ∧ s.rxq = [] ∧ t = s.withReturned (.toHost s.params.sentinel)) ∨
    (∃ b rest, s.usartState = .operational ∧ s.rxq = b :: rest ∧ t = (s.dropRx rest).withReturned (.toHost b)) := by
  unfold execRdData at h
  split at h
  · split at h
    · cases h; exact .inr (.inl ⟨‹_›, ‹_›, rfl⟩)
    · cases h; exact .inr (.inr ⟨_, _, ‹_›, ‹_›, rfl⟩)
  · cases h; exact .inl ⟨‹_›, rfl⟩

/-- WR_DATA's four cases (R124). -/
theorem execWrData_next {d : Byte} {s t : State} (h : execWrData d s = .next t) :
    (s.usartState ≠ .operational ∧ t = (s.raise (.writeDiscarded d .notOperational)).withReturned .nothing) ∨
    (s.usartState = .operational ∧ s.cmd.getLsbD 0 = false ∧
      t = (s.raise (.writeDiscarded d .txDisabled)).withReturned .nothing) ∨
    (s.usartState = .operational ∧ s.cmd.getLsbD 0 = true ∧ s.txq.length = s.params.txCap ∧
      t = (s.raise (.queueOverflow .tx d)).withReturned .nothing) ∨
    (s.usartState = .operational ∧ s.cmd.getLsbD 0 = true ∧ s.txq.length ≠ s.params.txCap ∧
      t = ((s.pushTx d).handOff (handOffDest s.mm) d).withReturned .nothing) := by
  unfold execWrData cmdTxen at h
  split at h
  · split at h
    · split at h
      · cases h; exact .inr (.inr (.inl ⟨‹_›, ‹_›, ‹_›, rfl⟩))
      · cases h; exact .inr (.inr (.inr ⟨‹_›, ‹_›, ‹_›, rfl⟩))
    · cases h; exact .inr (.inl ⟨‹_›, Bool.eq_false_iff.2 ‹_›, rfl⟩)
  · cases h; exact .inl ⟨‹_›, rfl⟩

/-- What a control-port write is, by state and bit 6 (R141). -/
theorem controlWrite_eq (st : UsartState) (v : Byte) :
    controlWrite st v =
      if st = .reset then .mode else if v.getLsbD 6 = true then .internalReset else .command := by
  cases st <;> rfl

/-- WR_MODE runs in Reset only (R142). -/
theorem execWrMode_next {v : Byte} {s t : State} (h : execWrMode v s = .next t) :
    s.usartState = .reset ∧ t = ((s.withMode v).withUsartState .modeInstruction).withReturned .nothing := by
  unfold execWrMode at h
  split at h
  · rename_i hc
    rw [controlWrite_eq] at hc
    split at hc
    · cases h; exact ⟨‹_›, rfl⟩
    · split at hc <;> cases hc
  · cases h
  · cases h

/-- WR_CMD runs outside Reset with bit 6 clear only (R143, R144, R145). -/
theorem execWrCmd_next {v : Byte} {s t : State} (h : execWrCmd v s = .next t) :
    s.usartState ≠ .reset ∧ v.getLsbD 6 = false ∧
      t = (s.storeCommand v (afterCommand s.usartState)).withReturned .nothing := by
  unfold execWrCmd at h
  split at h
  · rename_i hc
    rw [controlWrite_eq] at hc
    split at hc
    · cases hc
    · split at hc
      · cases hc
      · cases h; exact ⟨‹_›, Bool.eq_false_iff.2 ‹_›, rfl⟩
  · cases h
  · cases h

/-- WR_IR runs outside Reset with bit 6 set only (R146). -/
theorem execWrIr_next {v : Byte} {s t : State} (h : execWrIr v s = .next t) :
    s.usartState ≠ .reset ∧ v.getLsbD 6 = true ∧ t = s.internalReset.withReturned .nothing := by
  unfold execWrIr at h
  split at h
  · rename_i hc
    rw [controlWrite_eq] at hc
    split at hc
    · cases hc
    · split at hc
      · cases h; exact ⟨‹_›, ‹_›, rfl⟩
      · cases hc
  · cases h
  · cases h

/-- RXPUSH's two cases (R160, R161). -/
theorem execRxPush_next {b : Byte} {s t : State} (h : execRxPush b s = .next t) :
    (s.rxq.length = s.params.rxCap ∧ t = (s.overflowRx b).withReturned .nothing) ∨
    (s.rxq.length ≠ s.params.rxCap ∧ t = (s.pushRx b).withReturned .nothing) := by
  unfold execRxPush at h
  split at h
  · cases h; exact .inl ⟨‹_›, rfl⟩
  · cases h; exact .inr ⟨‹_›, rfl⟩

/-- TXPOP's two cases (R163). -/
theorem execTxPop_next {s t : State} (h : execTxPop s = .next t) :
    (s.txq = [] ∧ t = s.withReturned (.toBackground none)) ∨
    (∃ b rest, s.txq = b :: rest ∧ t = (s.dropTx rest).withReturned (.toBackground (some b))) := by
  unfold execTxPop at h
  split at h
  · cases h; exact .inl ⟨‹_›, rfl⟩
  · cases h; exact .inr ⟨_, _, ‹_›, rfl⟩

end Sys2Proof.Machine
end

