-- ==== Sys2Proof/Laws/Cycle.lean ====
section
/-! SUPPORT. What a step can do: the inversion of `step` over the inputs, and how a list of inputs runs. -/

namespace Sys2Proof.Machine

/-- Issuing an input runs it on the state as it stands. -/
theorem issue_eq (e : Input) (s : State) : issue e s = runInput e s := rfl

/-- A host word decodes to an operation in every state (R76). -/
theorem decode_host {w : OpWord} (h : fieldA w = false) (st : UsartState) : decode w st = .op (decodeHost w st) := by
  unfold decode; rw [h]

/-- A background word decodes by its call field in every state. -/
theorem decode_background {w : OpWord} (h : fieldA w = true) (st : UsartState) : decode w st = decodeCall w := by
  unfold decode; rw [h]

/-- What one operation word can do when it has a next state: an abandoned host cycle, or the decoded operation. -/
theorem runWord_next {w : OpWord} {o : CycleOutcome} {s t : State} (h : runWord w o s = .next t) :
    (wordAgent w = .host ∧ o = .abandoned ∧ t = s.abandon w) ∨
    (∃ i, decode w s.usartState = .op i ∧ exec i s = .next t) := by
  have key : ∀ d, runDecoded d s = .next t → ∃ i, d = .op i ∧ exec i s = .next t := by
    intro d hd
    cases d with
    | op i => exact ⟨i, rfl, hd⟩
    | refused r => cases r; cases hd
  unfold runWord at h
  split at h
  · cases h; exact .inl ⟨‹_›, rfl, rfl⟩
  · exact .inr (key _ h)
  · exact .inr (key _ h)

/-- What one input can do when it has a next state: an abandoned host cycle, a decoded operation, a change of the modem
mode, or power-on. -/
theorem runInput_next {e : Input} {s t : State} (h : runInput e s = .next t) :
    (∃ w, t = s.abandon w) ∨ (∃ w i, decode w s.usartState = .op i ∧ exec i s = .next t) ∨
    (∃ m, e = .modemMode m ∧ t = s.withMm m) ∨ (e = .powerOn ∧ t = s.powerOnReset) := by
  cases e with
  | op w o =>
    rcases runWord_next h with ⟨_, _, ht⟩ | ⟨i, hi, hx⟩
    · exact .inl ⟨w, ht⟩
    · exact .inr (.inl ⟨w, i, hi, hx⟩)
  | cycle addr dir bus o =>
    rcases runWord_next h with ⟨_, _, ht⟩ | ⟨i, hi, hx⟩
    · exact .inl ⟨_, ht⟩
    · exact .inr (.inl ⟨_, i, hi, hx⟩)
  | modemMode m => cases h; exact .inr (.inr (.inl ⟨m, rfl, rfl⟩))
  | powerOn => cases h; exact .inr (.inr (.inr ⟨rfl, rfl⟩))

/-- What a step can do when it has a next state: nothing for want of an input, or the first input. -/
theorem step_next {s t : State} (h : step s = .next t) :
    (s.pending = [] ∧ t = s) ∨ (∃ e rest, s.pending = e :: rest ∧ runInput e (s.withPending rest) = .next t) := by
  unfold step runNext at h
  split at h
  · cases h; exact .inl ⟨‹_›, rfl⟩
  · exact .inr ⟨_, _, ‹_›, h⟩

/-- An abandoned cycle touches the trace, the returned value and the count of draws only (R104). -/
theorem abandon_spec (s : State) (w : OpWord) :
    s.abandon w = { s with
      trace := s.trace ++ [.raised (.busTimeout (wordPort w) (wordDirection w))]
      returned := (s.abandon w).returned
      draws := (s.abandon w).draws } := by
  unfold State.abandon
  cases wordDirection w <;> rfl

/-- Inputs issued one after another. -/
theorem issueAll_cons_next {e : Input} {es : List Input} {s t : State} :
    issueAll (e :: es) s = .next t ↔ ∃ u, issue e s = .next u ∧ issueAll es u = .next t := by
  constructor
  · intro h
    unfold issueAll at h
    split at h
    · exact ⟨_, ‹_›, h⟩
    · cases h
    · cases h
  · rintro ⟨u, hu, ht⟩
    unfold issueAll
    rw [hu]
    exact ht

/-- A property that one input keeps, a list of inputs keeps. -/
theorem issueAll_keeps {P : State → Prop} {Q : Input → Prop}
    (hstep : ∀ e s t, Q e → P s → issue e s = .next t → P t) :
    ∀ (es : List Input) (s t : State), (∀ e ∈ es, Q e) → P s → issueAll es s = .next t → P t := by
  intro es
  induction es with
  | nil => intro s t _ hp h; cases h; exact hp
  | cons e es ih =>
    intro s t hq hp h
    obtain ⟨u, hu, ht⟩ := issueAll_cons_next.1 h
    exact ih u t (fun x hx => hq x (List.mem_cons_of_mem _ hx))
      (hstep e s u (hq e List.mem_cons_self) hp hu) ht

end Sys2Proof.Machine
end

