-- ==== Sys2Proof/Laws/PerInstr.lean ====
section
/-! SUPPORT. Per-instruction statements about the operations as syntax: the canonical word names the operation's agent in
bit 11 (R80). -/

namespace Sys2Proof.Laws.AgentBit

/-- The canonical word's format bit is that of the agent who issues the operation. -/
def Statement (i : Instr) : Prop := wordAgent (encode i) = i.agent

/-- An operand byte reaches no bit above 7 (R72). -/
theorem withOperand_bit11 (base : OpWord) (d : Byte) : fieldA (withOperand base d) = fieldA base := by
  simp [fieldA, withOperand]

theorem rdData : Statement .rdData := rfl
theorem rdStatus : Statement .rdStatus := rfl
theorem wrData (d : Byte) : Statement (.wrData d) := by
  simp only [Statement, wordAgent, encode, withOperand_bit11]; rfl
theorem wrMode (v : Byte) : Statement (.wrMode v) := by
  simp only [Statement, wordAgent, encode, withOperand_bit11]; rfl
theorem wrCmd (v : Byte) : Statement (.wrCmd v) := by
  simp only [Statement, wordAgent, encode, withOperand_bit11]; rfl
theorem wrIr (v : Byte) : Statement (.wrIr v) := by
  simp only [Statement, wordAgent, encode, withOperand_bit11]; rfl
theorem rdOther : Statement .rdOther := rfl
theorem wrOther (d : Byte) : Statement (.wrOther d) := by
  simp only [Statement, wordAgent, encode, withOperand_bit11]; rfl
theorem rxPush (b : Byte) : Statement (.rxPush b) := by
  simp only [Statement, wordAgent, encode, withOperand_bit11]; rfl
theorem txPop : Statement .txPop := rfl
theorem connSet (c : Bool) : Statement (.connSet c) := by cases c <;> rfl

end Sys2Proof.Laws.AgentBit
end

