-- ==== Sys2Proof/Tests/Slice0.lean ====
section
/-! SUPPORT. The model's own tests. Expected results are from spec/95_test_vectors.md (the vector's id stands at each) or
written out from the tables of spec/30_encoding.md; then one witness for the hypotheses of each obligation. -/

namespace Sys2Proof.Tests

open Sys2Proof.Machine

/-! ### Helpers -/

/-- A field of the next state, if there is one. -/
def after {α : Type} (a : Answer) (f : State → α) : Option α :=
  match a with
  | .next t => some (f t)
  | .fault _ => none
  | .refused _ => none

/-- The start state OP37 of the spec's vectors. -/
def op37 : State := { State.reset with usartState := .operational, mode := 0x4E#8, cmd := 0x37#8, status := 0x05#8 }

/-- OP37 with small queues. -/
def op37Small (rxCap txCap : Nat) (oe : Bool) : State :=
  { op37 with params := { Config.Params.defaults with rxCap := rxCap, txCap := txCap, overrunSetsOE := oe } }

/-- OP37 with a byte received. -/
def op37Rx : State := { op37 with rxq := [0x4F#8, 0x4B#8], status := 0x07#8 }

/-- The internal-reset state with a Connection (vector RS-5). -/
def irConnected : State := { State.reset with usartState := .modeInstruction, status := 0x05#8, conn := true }

/-- CommandInstruction after one command (end of vector CT-3). -/
def ci37 : State :=
  { State.reset with usartState := .commandInstruction, mode := 0x4E#8, cmd := 0x37#8, status := 0x05#8 }

/-! ### WellFormed: each check refuses an ill-formed term -/

theorem test_wellFormed_refuses_wrCmd_with_bit6 : Instr.wellFormed (.wrCmd 0x40#8) = false := by decide
theorem test_wellFormed_refuses_wrIr_without_bit6 : Instr.wellFormed (.wrIr 0xBF#8) = false := by decide
theorem test_wrMode_not_available_after_reset : Instr.availableIn (.wrMode 0x00#8) .modeInstruction = false := by decide
theorem test_wrCmd_not_available_in_reset : Instr.availableIn (.wrCmd 0x00#8) .reset = false := by decide
theorem test_wrIr_not_available_in_reset : Instr.availableIn (.wrIr 0x40#8) .reset = false := by decide

/-! ### Decoding: words written out bit by bit from R70, R71 and R75 -/

theorem test_decode_rdData : decode 0b010011111111#12 .reset = .op .rdData := by decide
theorem test_decode_rdStatus : decode 0b010110101010#12 .operational = .op .rdStatus := by decide
theorem test_decode_wrData : decode 0b011001000001#12 .operational = .op (.wrData 0x41#8) := by decide
theorem test_decode_wrMode : decode 0b011101000000#12 .reset = .op (.wrMode 0x40#8) := by decide
theorem test_decode_wrCmd : decode 0b011100110111#12 .commandInstruction = .op (.wrCmd 0x37#8) := by decide
theorem test_decode_wrIr : decode 0b011101001110#12 .operational = .op (.wrIr 0x4E#8) := by decide
theorem test_decode_rdOther : decode 0b000111111111#12 .reset = .op .rdOther := by decide
theorem test_decode_wrOther : decode 0b001110101011#12 .reset = .op (.wrOther 0xAB#8) := by decide
theorem test_decode_rxPush : decode 0b100011111111#12 .reset = .op (.rxPush 0xFF#8) := by decide
theorem test_decode_txPop : decode 0b100111111111#12 .reset = .op .txPop := by decide
theorem test_decode_connSet : decode 0b101011111110#12 .reset = .op (.connSet false) := by decide
theorem test_decode_reserved : decode 0b101100000000#12 .reset = .refused (.reservedCall 3#3) := by decide
theorem test_decodeTableWord_control_after_reset : decodeTableWord 16 0x740 = some (.wrMode 0x40#8) := by decide
theorem test_decodeTableWord_refuses_bit12 : decodeTableWord 16 0x1400 = none := by decide
theorem test_fetch_word_runs_next :
    after (step (State.reset.withFetchWord 16 0x74E)) (fun t => (t.usartState, t.mode, t.pending)) =
      some (.modeInstruction, 0x4E#8, []) := by decide

/-! ### The operations: one or two vectors each -/

/-- RD-4. -/
theorem test_rdData_pops :
    after (exec .rdData op37Rx) (fun t => (t.returned, t.rxq, t.status)) =
      some (.toHost 0x4F#8, [0x4B#8], 0x07#8) := by decide
/-- RD-2. -/
theorem test_rdData_outside_operational :
    after (exec .rdData { State.reset with usartState := .modeInstruction, status := 0x02#8, rxq := [0x41#8] })
      (fun t => (t.returned, t.rxq, t.trace)) = some (.toHost 0xFF#8, [0x41#8], [.raised .readNotOperational]) := by decide
/-- WD-5. -/
theorem test_wrData_online :
    after (exec (.wrData 0x41#8) { op37 with conn := true, status := 0x85#8, mm := .online })
      (fun t => (t.txq, t.status, t.trace)) = some ([0x41#8], 0x81#8, [.handOff .network 0x41#8]) := by decide
/-- WD-7, the third write. -/
theorem test_wrData_full :
    after (exec (.wrData 0x0D#8) { op37Small 1024 2 false with txq := [0x41#8, 0x54#8], status := 0x00#8 })
      (fun t => (t.txq, t.status, t.trace)) =
      some ([0x41#8, 0x54#8], 0x00#8, [.raised (.queueOverflow .tx 0x0D#8)]) := by decide
/-- RS-5. -/
theorem test_rdStatus_stale_dsr : after (exec .rdStatus irConnected) (·.returned) = some (.toHost 0x05#8) := by decide
/-- CT-2. -/
theorem test_wrMode_takes_bit6 :
    after (issue (AsmLine.outC 0x40#8).input { State.reset with status := 0x02#8, rxq := [0x41#8] })
      (fun t => (t.usartState, t.mode, t.status, t.rxq)) =
      some (.modeInstruction, 0x40#8, 0x02#8, [0x41#8]) := by decide
/-- The example of R144. -/
theorem test_wrCmd_enters_operational :
    after (exec (.wrCmd 0x27#8) { ci37 with rxq := [0x4F#8], conn := true })
      (fun t => (t.usartState, t.cmd, t.status)) = some (.operational, 0x27#8, 0x87#8) := by decide
/-- CT-9b. -/
theorem test_wrCmd_er_clears_oe :
    after (exec (.wrCmd 0x37#8) { op37Small 1 1024 true with rxq := [0x4F#8], status := 0x17#8 }) (·.status) =
      some 0x07#8 := by decide
/-- CT-7. -/
theorem test_wrIr_resets :
    after (exec (.wrIr 0x40#8)
        { op37 with status := 0x83#8, rxq := [0x4F#8, 0x4B#8], txq := [0x41#8], conn := true })
      (fun t => (t.usartState, t.cmd, t.status, t.rxq ++ t.txq, t.conn, t.mode)) =
      some (.modeInstruction, 0x00#8, 0x05#8, [], true, 0x4E#8) := by decide
/-- OT-1. -/
theorem test_rdOther :
    after (exec .rdOther State.reset) (fun t => (t.returned, t.trace)) =
      some (.toHost 0x00#8, [.raised (.invalidRegisterAccess .read)]) := by decide
/-- OT-2. -/
theorem test_wrOther :
    after (exec (.wrOther 0x40#8) { op37 with txq := [0x41#8], status := 0x01#8 })
      (fun t => (t.usartState, t.txq, t.trace)) =
      some (.operational, [0x41#8], [.raised (.invalidRegisterAccess .write)]) := by decide
/-- RX-3. -/
theorem test_rxPush_closes_window :
    after (exec (.rxPush 0x41#8) irConnected) (fun t => (t.rxq, t.status)) = some ([0x41#8], 0x82#8) := by decide
/-- RX-5. -/
theorem test_rxPush_overflow_sets_oe :
    after (exec (.rxPush 0x0D#8) { op37Small 2 1024 true with rxq := [0x4F#8, 0x4B#8], status := 0x07#8 })
      (fun t => (t.rxq, t.status, t.trace)) =
      some ([0x4F#8, 0x4B#8], 0x17#8, [.raised (.queueOverflow .rx 0x0D#8)]) := by decide
/-- TP-2. -/
theorem test_txPop_last :
    after (exec .txPop { op37 with txq := [0x54#8], conn := true, status := 0x81#8 })
      (fun t => (t.returned, t.txq, t.status)) = some (.toBackground (some 0x54#8), [], 0x85#8) := by decide
/-- TP-4. -/
theorem test_txPop_without_txen :
    after (exec .txPop { op37 with cmd := 0x36#8, txq := [0x41#8], status := 0x00#8 })
      (fun t => (t.returned, t.status)) = some (.toBackground (some 0x41#8), 0x00#8) := by decide
/-- CS-1. -/
theorem test_connSet_in_window :
    after (exec (.connSet true) { irConnected with conn := false }) (fun t => (t.conn, t.status)) =
      some (true, 0x85#8) := by decide
/-- BT-4. -/
theorem test_abandoned_internal_reset :
    after (issue (AsmLine.outC 0x40#8).timedOut { op37 with txq := [0x41#8], status := 0x01#8 })
      (fun t => (t.usartState, t.txq, t.trace)) =
      some (.operational, [0x41#8], [.raised (.busTimeout .control .write)]) := by decide
/-- BT-1: the pop does not happen; the latched byte is any byte. -/
theorem test_abandoned_read_keeps_byte :
    after (issue AsmLine.inD.timedOut { op37 with rxq := [0x41#8], status := 0x07#8 })
      (fun t => (t.rxq, t.status, t.trace)) = some ([0x41#8], 0x07#8, [.raised (.busTimeout .data .read)]) := by decide

/-- The response "OK" of R165 is the four pushes 4F, 4B, 0D, 0A, in queue order. -/
theorem test_responseLine_ok :
    after (issueAll (responseLine [0x4F#8, 0x4B#8]) op37) (fun t => (t.rxq, t.status)) =
      some ([0x4F#8, 0x4B#8, 0x0D#8, 0x0A#8], 0x07#8) := by decide
/-- S10, at the block's boundary. -/
theorem test_remoteClose :
    after (issueAll ((remoteClose []).take 3) { op37 with conn := true, status := 0x85#8, mm := .online })
      (fun t => (t.conn, t.mm, t.status)) = some (false, .command, 0x07#8) := by decide

/-! ### Witnesses: a concrete input that meets all hypotheses of an obligation, clause by clause -/

theorem op37Rx_inv : BankInv op37Rx where
  params := ⟨rfl, rfl, by decide⟩
  rxCapacity := by decide
  txCapacity := by decide
  cmdIr := by decide
  txqOperational := fun _ => rfl
  status := .inl ⟨by decide, by decide, by decide, by decide⟩
  errorBits := by decide
  overrun := by decide

theorem ci37_inv : BankInv ci37 where
  params := ⟨rfl, rfl, by decide⟩
  rxCapacity := by decide
  txCapacity := by decide
  cmdIr := by decide
  txqOperational := fun _ => rfl
  status := .inl ⟨by decide, by decide, by decide, by decide⟩
  errorBits := by decide
  overrun := by decide

/-- The internal-reset state with a Connection, an RX push to come. -/
def irThenPush : State := { irConnected with pending := [(AsmLine.bgRxPush 0x41#8).input] }

theorem irThenPush_inv : BankInv irThenPush where
  params := ⟨rfl, rfl, by decide⟩
  rxCapacity := by decide
  txCapacity := by decide
  cmdIr := by decide
  txqOperational := fun _ => rfl
  status := .inr ⟨rfl, rfl, rfl, rfl, by decide, by decide, by decide, .inl (by decide)⟩
  errorBits := by decide
  overrun := by decide

/-- The first and last word of each range of the opcode map. -/
theorem witness_DecodeFollowsOpcodeMap :
    ([0x000#12, 0x1FF#12, 0x200#12, 0x3FF#12, 0x400#12, 0x4FF#12, 0x500#12, 0x600#12, 0x6FF#12] : List OpWord).map
        (fun w => w.toNat / 256) = [0, 1, 2, 3, 4, 4, 5, 6, 6] ∧
    ([0x700#12, 0x73F#12, 0x740#12, 0x77F#12, 0x780#12, 0x7FF#12] : List OpWord).map
        (fun w => (w.toNat / 256, w.toNat / 64 % 2)) = [(7, 0), (7, 0), (7, 1), (7, 1), (7, 0), (7, 1)] ∧
    ([0x8FF#12, 0x900#12, 0xA00#12, 0xAFF#12, 0xB00#12, 0xFFF#12] : List OpWord).map (fun w => w.toNat / 256) =
        [8, 9, 10, 10, 11, 15] := by decide
theorem witness_DecodeOfEncodeIsIdentity :
    Instr.wellFormed (.wrCmd 0xBF#8) = true ∧ Instr.availableIn (.wrCmd 0xBF#8) .modeInstruction = true := by decide
theorem witness_EncodeOfDecodeClearsIgnoredBits : decode 0xAFF#12 .reset = .op (.connSet true) := by decide
theorem witness_IgnoredBitsChangeNothing :
    decode 0x4FF#12 .reset = .op .rdData ∧
      0x400#12 &&& significantBits .rdData = 0x4FF#12 &&& significantBits .rdData := by decide
theorem witness_StepRunsDecodedOperation_host :
    ∃ (s : State) (rest : List Input), s.pending = .op 0x4FF#12 .completed :: rest ∧
      decode 0x4FF#12 s.usartState = .op .rdData := ⟨{ op37 with pending := [.op 0x4FF#12 .completed] }, [], rfl, by decide⟩
theorem witness_StepRunsDecodedOperation_background :
    ∃ (s : State) (rest : List Input), s.pending = .op 0x841#12 .abandoned :: rest ∧ (0x841#12).getLsbD 11 = true ∧
      decode 0x841#12 s.usartState = .op (.rxPush 0x41#8) :=
  ⟨{ op37 with pending := [.op 0x841#12 .abandoned] }, [], rfl, by decide, by decide⟩
theorem witness_StepRunsDecodedOperation_idle : State.reset.pending = [] := rfl
theorem witness_CycleAtAddressRunsAsItsWord :
    (∃ (s : State) (rest : List Input), s.pending = .cycle 3 .read 0x00#8 .completed :: rest) ∧
    (∃ addr : Nat, addr ≠ Config.dataPortAddr ∧ addr ≠ Config.controlPortAddr) :=
  ⟨⟨{ op37 with pending := [.cycle 3 .read 0x00#8 .completed] }, [], rfl⟩,
    ⟨Config.dataPortAddr + Config.controlPortAddr + 1, by omega, by omega⟩⟩
theorem witness_AbandonedCycleOnlyRaisesBusTimeout :
    (∃ (s : State) (rest : List Input), s.pending = .op 0x7FF#12 .abandoned :: rest) ∧
      (0x7FF#12).getLsbD 11 = false ∧ (0x7FF#12).getLsbD 9 = true ∧ (0x5FF#12).getLsbD 9 = false :=
  ⟨⟨{ op37 with pending := [.op 0x7FF#12 .abandoned] }, [], rfl⟩, by decide, by decide, by decide⟩
theorem witness_ModemModeAndPowerOnInputs :
    (∃ (s : State) (rest : List Input), s.pending = .modemMode .online :: rest) ∧
    (∃ (s : State) (rest : List Input), s.pending = .powerOn :: rest) :=
  ⟨⟨{ op37 with pending := [.modemMode .online] }, [], rfl⟩, ⟨{ op37 with pending := [.powerOn] }, [], rfl⟩⟩
theorem witness_EveryOtherInputHasNextState :
    ∀ w o, (Input.op 0xAFF#12 .completed) = .op w o → w.toNat / 256 < 11 := by
  intro w o h; cases h; decide
theorem witness_RdDataResult :
    State.reset.usartState ≠ .operational ∧ (op37.usartState = .operational ∧ op37.rxq = []) ∧
      (op37Rx.usartState = .operational ∧ op37Rx.rxq = 0x4F#8 :: [0x4B#8]) := by decide
/-- Clauses 1 to 4; the last two at TXQ exactly full and one byte short of it. -/
theorem witness_WrDataResult :
    State.reset.usartState ≠ .operational ∧
    (({ op37 with cmd := 0x36#8 } : State).usartState = .operational ∧
      ({ op37 with cmd := 0x36#8 } : State).cmd.getLsbD 0 = false) ∧
    (op37.cmd.getLsbD 0 = true ∧
      ({ op37Small 1024 2 false with txq := [0x41#8, 0x54#8] } : State).txq.length = (op37Small 1024 2 false).params.txCap) ∧
    ({ op37Small 1024 2 false with txq := [0x41#8] } : State).txq.length ≠ (op37Small 1024 2 false).params.txCap := by
  decide
theorem witness_WrModeResult :
    State.reset.usartState = .reset ∧
    after (exec (.wrMode 0x40#8) State.reset) (fun t => t.usartState) = some .modeInstruction := by decide
theorem witness_WrCmdResult :
    (0xBF#8).getLsbD 6 = false ∧ irConnected.usartState ≠ .reset ∧ ci37.usartState ≠ .reset ∧ op37.usartState ≠ .reset := by
  decide
theorem witness_WrIrResult :
    (0x40#8).getLsbD 6 = true ∧ irConnected.usartState ≠ .reset ∧ ci37.usartState ≠ .reset ∧ op37.usartState ≠ .reset := by
  decide
theorem witness_RxPushResult :
    ({ op37Small 2 2 false with rxq := [0x4F#8] } : State).rxq.length ≠ (op37Small 2 2 false).params.rxCap ∧
    ({ op37Small 2 2 false with rxq := [0x4F#8, 0x4B#8] } : State).rxq.length = (op37Small 2 2 false).params.rxCap := by
  decide
theorem witness_TxPopResult :
    op37.txq = [] ∧ ({ op37 with txq := [0x41#8] } : State).txq = 0x41#8 :: [] := by decide
theorem witness_ControlWriteOutsideItsRowRefused :
    op37.usartState ≠ .reset ∧ State.reset.usartState = .reset ∧ (0x40#8).getLsbD 6 = true ∧
      (0xBF#8).getLsbD 6 = false := by decide
theorem witness_OnlyListedOperationsWriteEachRegister :
    after (exec (.wrIr 0x40#8) op37Rx) (fun t =>
      (decide (t.usartState ≠ op37Rx.usartState), decide (t.cmd ≠ op37Rx.cmd), decide (t.status ≠ op37Rx.status),
        decide (t.rxq ≠ op37Rx.rxq))) = some (true, true, true, true) ∧
    after (exec (.wrMode 0x4E#8) State.reset) (fun t => decide (t.mode ≠ State.reset.mode)) = some true ∧
    after (exec (.wrData 0x41#8) op37) (fun t => decide (t.txq ≠ op37.txq)) = some true ∧
    after (exec (.connSet true) op37) (fun t => decide (t.conn ≠ op37.conn)) = some true := by decide
/-- Clause by clause: a queue mutation, an internal reset, a CONN_SET, an RX overflow, and an operation that writes no
status. -/
theorem witness_RecomputeRunsAfterEachMutation :
    after (exec .rdData op37Rx) (fun t => decide (t.rxq ≠ op37Rx.rxq)) = some true ∧
    after (exec (.wrIr 0x40#8) op37Rx) (·.status) = some op37Rx.params.irStatus ∧
    after (exec (.connSet true) { irConnected with conn := false }) (·.status) = some 0x85#8 ∧
    (({ op37Small 2 2 true with rxq := [0x4F#8, 0x4B#8] } : State).rxq.length = (op37Small 2 2 true).params.rxCap ∧
      after (exec (.rxPush 0x0D#8) { op37Small 2 2 true with rxq := [0x4F#8, 0x4B#8] }) (·.status) = some 0x15#8) ∧
    after (exec .rdStatus irConnected) (fun t => decide (t.rxq = irConnected.rxq ∧ t.txq = irConnected.txq)) =
      some true := by decide
theorem witness_OperationsRaiseOnlyTheirConditions :
    after (exec (.wrData 0x41#8) State.reset) (·.trace) = some [.raised (.writeDiscarded 0x41#8 .notOperational)] ∧
    RaisedBy (.wrData 0x41#8) State.reset (.writeDiscarded 0x41#8 .notOperational) :=
  ⟨by decide, rfl, by decide⟩
theorem witness_ModeIsNeverRead : ∀ v, Instr.rdData ≠ .wrMode v := by intro v h; cases h
theorem witness_StoredCommandReadOnlyThroughTxen : (0xBF#8).getLsbD 0 = op37.cmd.getLsbD 0 := by decide
/-- In the internal-reset window, the step that closes it. -/
theorem witness_StepKeepsInvariant :
    BankInv irThenPush ∧ after (step irThenPush) (·.status) = some 0x82#8 := ⟨irThenPush_inv, by decide⟩
/-- With RXQ at its capacity and TXQ one byte short of it, the write that fills it. -/
theorem witness_StepKeepsQueueCapacities :
    ([0x4F#8, 0x4B#8] : List Byte).length ≤ (op37Small 2 2 false).params.rxCap ∧
    ([0x41#8] : List Byte).length ≤ (op37Small 2 2 false).params.txCap ∧
    after (step { op37Small 2 2 false with
        rxq := [0x4F#8, 0x4B#8], txq := [0x41#8], pending := [(AsmLine.outD 0x54#8).input] })
      (fun t => (t.rxq.length, t.txq.length)) = some (2, 2) := by decide
theorem witness_QueuesNeverExceedCapacity :
    after (issueAll [(AsmLine.bgRxPush 0x41#8).input] (State.powerOn Config.Params.defaults)) (·.rxq) = some [0x41#8] ∧
    after (exec (.rxPush 0x0D#8) { op37Small 2 2 false with rxq := [0x4F#8, 0x4B#8] }) (·.rxq) =
      some [0x4F#8, 0x4B#8] ∧
    after (exec (.wrData 0x0D#8) { op37Small 2 2 false with txq := [0x41#8, 0x54#8] }) (·.txq) =
      some [0x41#8, 0x54#8] := by decide
theorem witness_ReachableStatusIsConsistent :
    ParamsAsSpec Config.Params.defaults ∧
    after (issueAll (Pseudo.setup 0x4E#8 0x37#8).inputs State.reset) (fun t => (t.usartState, t.status)) =
      some (.operational, 0x05#8) :=
  ⟨⟨rfl, rfl, by decide⟩, by decide⟩
theorem witness_OverrunErrorStaysUntilCleared :
    (0x17#8).getLsbD 4 = true ∧
    after (issue (AsmLine.outC 0x37#8).input { op37Small 1 1 true with rxq := [0x4F#8], status := 0x17#8 })
      (fun t => t.status.getLsbD 4) = some false := by decide
theorem witness_ResetNeverReenteredWithoutPowerOn :
    ci37.usartState ≠ .reset ∧ Input.powerOn ∉ [(AsmLine.outC 0x40#8).input] ∧
    after (issueAll [(AsmLine.outC 0x40#8).input] ci37) (·.usartState) = some .modeInstruction := by decide
theorem witness_ConnIsLastConnSet :
    after (issueAll [(AsmLine.bgConnSet true).input, AsmLine.inC.input] op37) (·.conn) = some true := by decide
/-- At the last byte that fits. -/
theorem witness_ReceivedBytesReadInPushOrder :
    op37.usartState = .operational ∧
    ({ op37Small 2 2 false with rxq := [0x4F#8] } : State).rxq.length + [0x4B#8].length ≤
      (op37Small 2 2 false).params.rxCap := by decide
/-- At the last byte that fits. -/
theorem witness_WrittenBytesQueueInWriteOrder :
    op37.usartState = .operational ∧ op37.cmd.getLsbD 0 = true ∧
    ({ op37Small 2 2 false with txq := [0x41#8] } : State).txq.length + [0x54#8].length ≤
      (op37Small 2 2 false).params.txCap := by decide
theorem witness_GuardedReadReturnsHead :
    BankInv op37Rx ∧ op37Rx.usartState = .operational ∧ op37Rx.status.getLsbD 1 = true ∧
    (∀ e ∈ [(AsmLine.bgRxPush 0x0D#8).input, .modemMode .online], e.notHost = true) ∧
    after (issueAll [(AsmLine.bgRxPush 0x0D#8).input, .modemMode .online] op37Rx) (·.rxq) =
      some [0x4F#8, 0x4B#8, 0x0D#8] :=
  ⟨op37Rx_inv, by decide, by decide, by decide, by decide⟩
theorem witness_GuardedWriteIsEffective :
    BankInv op37Rx ∧ op37Rx.usartState = .operational ∧ op37Rx.status.getLsbD 0 = true ∧
    (∀ e ∈ [AsmLine.bgTxPop.input], e.notHost = true) ∧
    after (issueAll [AsmLine.bgTxPop.input] op37Rx) (·.returned) = some (.toBackground none) :=
  ⟨op37Rx_inv, by decide, by decide, by decide, by decide⟩
theorem witness_TwoResetBytesReachInternalResetState : (0x40#8).getLsbD 6 = true ∧ (0xFF#8).getLsbD 6 = true := by decide
theorem witness_PseudoInstructionsReachTheirState :
    State.reset.usartState = .reset ∧ (0xBF#8).getLsbD 6 = false ∧ irConnected.usartState = .modeInstruction ∧
      irConnected.usartState ≠ .reset := by decide
theorem witness_TxrdyAfterInternalResetPromisesNothing :
    irConnected.usartState ≠ .reset ∧ irConnected.params.irStatus = 0x05#8 := by decide
theorem witness_TwoCommandWritesReachOperational :
    irConnected.usartState = .modeInstruction ∧ (0x00#8).getLsbD 6 = false ∧ (0xBF#8).getLsbD 6 = false ∧
    after (issueAll [(AsmLine.outC 0x00#8).input, (AsmLine.outD 0x41#8).input, AsmLine.inD.input] irConnected)
      (fun t => (t.txq, t.returned)) = some ([], .toHost 0xFF#8) := by decide
theorem witness_PopChangesRxrdyOnly :
    BankInv op37Rx ∧ op37Rx.usartState = .operational ∧ op37Rx.rxq ≠ [] ∧
    after (exec .rdData op37Rx) (·.status) = some 0x07#8 := ⟨op37Rx_inv, by decide, by decide, by decide⟩
theorem witness_TxFlagsAfterCommandWrite :
    BankInv ci37 ∧ ci37.usartState = .commandInstruction ∧
    after (exec (.wrCmd 0x27#8) ci37) (·.status) = some 0x05#8 ∧
    (0x27#8).getLsbD 0 = true ∧ ci37.txq.length < ci37.params.txCap := ⟨ci37_inv, by decide, by decide, by decide, by decide⟩
/-- At the last write that fits. -/
theorem witness_TxrdyAfterEffectiveWrite : WriteEffective { op37Small 2 2 false with txq := [0x41#8] } :=
  ⟨by decide, by decide, by decide⟩

end Sys2Proof.Tests
end

section
/-! SUPPORT. What one operation can do to the queues and to `STATUS`, said once, and the statements on the recompute
(R34) and on the capacities (R37) that follow from it. -/

namespace Sys2Proof.Machine

/-! ### Returning a value, recording a hand-off, and an RX overflow leave these as they are -/

theorem ImageHolds.withReturned {t : State} (h : ImageHolds t) (r : Returned) : ImageHolds (t.withReturned r) :=
  ⟨h.txrdy, h.rxrdy, h.txe, h.dsr⟩

theorem ImageHolds.handOff {t : State} (h : ImageHolds t) (dest : HandOffDest) (b : Byte) :
    ImageHolds (t.handOff dest b) := ⟨h.txrdy, h.rxrdy, h.txe, h.dsr⟩

theorem RecomputedFrom.withReturned {old : Byte} {t : State} (h : RecomputedFrom old t) (r : Returned) :
    RecomputedFrom old (t.withReturned r) := ⟨h.1.withReturned r, h.2⟩

theorem RecomputedFrom.handOff {old : Byte} {t : State} (h : RecomputedFrom old t) (dest : HandOffDest) (b : Byte) :
    RecomputedFrom old (t.handOff dest b) := ⟨h.1.handOff dest b, h.2⟩

@[simp] theorem State.overflowRx_rxq (s : State) (b : Byte) : (s.overflowRx b).rxq = s.rxq := by
  rw [(overflowRx_spec s b).2]

@[simp] theorem State.overflowRx_txq (s : State) (b : Byte) : (s.overflowRx b).txq = s.txq := by
  rw [(overflowRx_spec s b).2]

@[simp] theorem State.overflowRx_params (s : State) (b : Byte) : (s.overflowRx b).params = s.params := by
  rw [(overflowRx_spec s b).2]

@[simp] theorem State.overflowRx_trace (s : State) (b : Byte) :
    (s.overflowRx b).trace = s.trace ++ [.raised (.queueOverflow .rx b)] := by
  rw [(overflowRx_spec s b).2]

/-! ### The effect of an operation on the queues and on `STATUS` -/

/-- The operations that may write `STATUS` and leave both queues as they are: a command write, CONN_SET, and a push
dropped by a full RXQ (R34, R161, R162). -/
def WritesStatusAlone (i : Instr) (s : State) : Prop :=
  (∃ v, i = .wrCmd v) ∨ (∃ c, i = .connSet c) ∨ ∃ b, i = .rxPush b ∧ s.rxq.length = s.params.rxCap

/-- What the operation `i` does to the queues and to `STATUS` on the way from `s` to `t`. -/
inductive QueueEffect (i : Instr) (s t : State) : Prop
  /-- A byte arrives in an RXQ that is not full (R160). -/
  | rxPushed (b : Byte) (room : s.rxq.length ≠ s.params.rxCap) (rxq : t.rxq = s.rxq ++ [b]) (txq : t.txq = s.txq)
      (status : RecomputedFrom s.status t)
  /-- The host takes RXQ's head (R121). -/
  | rxPopped (b : Byte) (rxq : s.rxq = b :: t.rxq) (txq : t.txq = s.txq) (status : RecomputedFrom s.status t)
  /-- The host queues a byte in a TXQ that is not full (R124). -/
  | txPushed (d : Byte) (room : s.txq.length ≠ s.params.txCap) (rxq : t.rxq = s.rxq) (txq : t.txq = s.txq ++ [d])
      (status : RecomputedFrom s.status t)
  /-- The background context takes TXQ's head (R163). -/
  | txPopped (d : Byte) (rxq : t.rxq = s.rxq) (txq : s.txq = d :: t.txq) (status : RecomputedFrom s.status t)
  /-- An internal reset empties both queues (R146). -/
  | cleared (v : Byte) (op : i = .wrIr v) (rxq : t.rxq = []) (txq : t.txq = [])
  /-- `STATUS` is written and no queue is. -/
  | statusAlone (op : WritesStatusAlone i s) (rxq : t.rxq = s.rxq) (txq : t.txq = s.txq)
  /-- Neither the queues nor `STATUS` are written. -/
  | untouched (rxq : t.rxq = s.rxq) (txq : t.txq = s.txq) (status : t.status = s.status)

theorem execRdData_queueEffect {s t : State} (h : execRdData s = .next t) : QueueEffect .rdData s t := by
  obtain ⟨-, rfl⟩ | ⟨-, -, rfl⟩ | ⟨b, rest, -, hq, rfl⟩ := execRdData_next h
  · exact .untouched rfl rfl rfl
  · exact .untouched rfl rfl rfl
  · exact .rxPopped b hq rfl ((dropRx_spec s rest).1.withReturned _)

theorem execWrData_queueEffect {d : Byte} {s t : State} (h : execWrData d s = .next t) :
    QueueEffect (.wrData d) s t := by
  obtain ⟨-, rfl⟩ | ⟨-, -, rfl⟩ | ⟨-, -, -, rfl⟩ | ⟨-, -, room, rfl⟩ := execWrData_next h
  · exact .untouched rfl rfl rfl
  · exact .untouched rfl rfl rfl
  · exact .untouched rfl rfl rfl
  · exact .txPushed d room rfl rfl (((pushTx_spec s d).1.handOff _ d).withReturned _)

theorem execRxPush_queueEffect {b : Byte} {s t : State} (h : execRxPush b s = .next t) :
    QueueEffect (.rxPush b) s t := by
  obtain ⟨full, rfl⟩ | ⟨room, rfl⟩ := execRxPush_next h
  · exact .statusAlone (.inr (.inr ⟨b, rfl, full⟩)) (s.overflowRx_rxq b) (s.overflowRx_txq b)
  · exact .rxPushed b room rfl rfl ((pushRx_spec s b).1.withReturned _)

theorem execTxPop_queueEffect {s t : State} (h : execTxPop s = .next t) : QueueEffect .txPop s t := by
  obtain ⟨-, rfl⟩ | ⟨d, rest, hq, rfl⟩ := execTxPop_next h
  · exact .untouched rfl rfl rfl
  · exact .txPopped d rfl hq ((dropTx_spec s rest).1.withReturned _)

/-- Every operation has one of the effects. -/
theorem exec_queueEffect {i : Instr} {s t : State} (h : exec i s = .next t) : QueueEffect i s t := by
  cases i with
  | rdData => exact execRdData_queueEffect h
  | rdStatus => cases h; exact .untouched rfl rfl rfl
  | wrData d => exact execWrData_queueEffect h
  | wrMode v => obtain ⟨-, rfl⟩ := execWrMode_next h; exact .untouched rfl rfl rfl
  | wrCmd v => obtain ⟨-, -, rfl⟩ := execWrCmd_next h; exact .statusAlone (.inl ⟨v, rfl⟩) rfl rfl
  | wrIr v => obtain ⟨-, -, rfl⟩ := execWrIr_next h; exact .cleared v rfl rfl rfl
  | rdOther => cases h; exact .untouched rfl rfl rfl
  | wrOther d => cases h; exact .untouched rfl rfl rfl
  | rxPush b => exact execRxPush_queueEffect h
  | txPop => exact execTxPop_queueEffect h
  | connSet c => cases h; exact .statusAlone (.inr (.inl ⟨c, rfl⟩)) rfl rfl

/-! ### The recompute -/

/-- A queue mutation other than an internal reset's ends in a recompute (R34). -/
theorem recomputed_of_queue_changed {i : Instr} {s t : State} (h : exec i s = .next t) (hi : ∀ v, i ≠ .wrIr v)
    (changed : t.rxq ≠ s.rxq ∨ t.txq ≠ s.txq) : RecomputedFrom s.status t := by
  cases exec_queueEffect h with
  | rxPushed _ _ _ _ status => exact status
  | rxPopped _ _ _ status => exact status
  | txPushed _ _ _ _ status => exact status
  | txPopped _ _ _ status => exact status
  | cleared v op => exact absurd op (hi v)
  | statusAlone _ rxq txq => exact (changed.elim (· rxq) (· txq)).elim
  | untouched rxq txq => exact (changed.elim (· rxq) (· txq)).elim

/-- A command write ends in a recompute (R143, R144, R145). -/
theorem imageHolds_of_wrCmd {v : Byte} {s t : State} (h : exec (.wrCmd v) s = .next t) : ImageHolds t := by
  obtain ⟨-, -, rfl⟩ := execWrCmd_next h
  exact (storeCommand_spec s v (afterCommand s.usartState)).1.withReturned _

/-- An internal reset leaves `IR_STATUS` (R146). -/
theorem status_of_wrIr {v : Byte} {s t : State} (h : exec (.wrIr v) s = .next t) : t.status = s.params.irStatus := by
  obtain ⟨-, -, rfl⟩ := execWrIr_next h
  rfl

/-- CONN_SET writes DSR alone (R162). -/
theorem status_of_connSet {c : Bool} {s t : State} (h : exec (.connSet c) s = .next t) (k : Nat) :
    t.status.getLsbD k = if k = 7 then c else s.status.getLsbD k := by
  cases h
  exact getLsbD_setDsr s.status c k

/-- A push to a full RXQ is an overflow (R161). -/
theorem rxPush_full {b : Byte} {s t : State} (h : exec (.rxPush b) s = .next t)
    (full : s.rxq.length = s.params.rxCap) :
    t = (s.overflowRx b).withReturned .nothing := by
  obtain ⟨-, ht⟩ | ⟨room, -⟩ := execRxPush_next h
  · exact ht
  · exact absurd full room

/-- An operation that changed no queue wrote `STATUS` only as an internal reset or as one that writes `STATUS` alone:
every other write of `STATUS` comes with a push or a pop, and no list equals itself with a byte more (R34). -/
theorem status_kept {i : Instr} {s t : State} (h : exec i s = .next t) (hr : t.rxq = s.rxq) (ht : t.txq = s.txq)
    (hir : ∀ v, i ≠ .wrIr v) (alone : ¬ WritesStatusAlone i s) : t.status = s.status := by
  cases exec_queueEffect h with
  | rxPushed b _ rxq => simp [hr] at rxq
  | rxPopped b rxq => simp [hr] at rxq
  | txPushed d _ _ txq => simp [ht] at txq
  | txPopped d _ txq => simp [ht] at txq
  | cleared v op => exact absurd op (hir v)
  | statusAlone op => exact absurd op alone
  | untouched _ _ status => exact status

/-- Settles O27: by the effect of the operation on the queues. -/
theorem recomputeRunsAfterEachMutation : Obligations.RecomputeRunsAfterEachMutation := by
  intro i s t h
  refine ⟨fun hir => ?_, fun hir changed => (recomputed_of_queue_changed h hir changed).2, ?_, ?_, ?_, ?_⟩
  · rintro (hr | ht | ⟨v, rfl⟩)
    · exact (recomputed_of_queue_changed h hir (.inl hr)).1
    · exact (recomputed_of_queue_changed h hir (.inr ht)).1
    · exact imageHolds_of_wrCmd h
  · rintro v rfl
    exact status_of_wrIr h
  · rintro c rfl
    exact status_of_connSet h
  · rintro b rfl full
    rw [rxPush_full h full]
    exact (overflowRx_spec s b).1
  · intro hr ht hcmd hir hconn hpush
    refine status_kept h hr ht hir ?_
    rintro (⟨v, hv⟩ | ⟨c, hc⟩ | ⟨b, hb, full⟩)
    · exact hcmd v hv
    · exact hconn c hc
    · exact hpush b hb full

/-! ### The capacities -/

/-- Both queues are within their capacities (R37). -/
def QueuesFit (s : State) : Prop := s.rxq.length ≤ s.params.rxCap ∧ s.txq.length ≤ s.params.txCap

/-- No operation writes the parameters. -/
theorem exec_params {i : Instr} {s t : State} (h : exec i s = .next t) : t.params = s.params := by
  cases i with
  | rdData => obtain ⟨-, rfl⟩ | ⟨-, -, rfl⟩ | ⟨_, _, -, -, rfl⟩ := execRdData_next h <;> rfl
  | rdStatus => cases h; rfl
  | wrData d =>
    obtain ⟨-, rfl⟩ | ⟨-, -, rfl⟩ | ⟨-, -, -, rfl⟩ | ⟨-, -, -, rfl⟩ := execWrData_next h <;> rfl
  | wrMode v => obtain ⟨-, rfl⟩ := execWrMode_next h; rfl
  | wrCmd v => obtain ⟨-, -, rfl⟩ := execWrCmd_next h; rfl
  | wrIr v => obtain ⟨-, -, rfl⟩ := execWrIr_next h; rfl
  | rdOther => cases h; rfl
  | wrOther d => cases h; rfl
  | rxPush b =>
    obtain ⟨-, rfl⟩ | ⟨-, rfl⟩ := execRxPush_next h
    · exact s.overflowRx_params b
    · rfl
  | txPop => obtain ⟨-, rfl⟩ | ⟨_, _, -, rfl⟩ := execTxPop_next h <;> rfl
  | connSet c => cases h; rfl

/-- An operation keeps the queues within their capacities: it pushes only where there is room. -/
theorem exec_queuesFit {i : Instr} {s t : State} (h : exec i s = .next t) (fit : QueuesFit s) : QueuesFit t := by
  obtain ⟨hr, ht⟩ := fit
  unfold QueuesFit
  rw [exec_params h]
  cases exec_queueEffect h with
  | rxPushed b room rxq txq => rw [rxq, txq, List.length_append, List.length_singleton]; omega
  | rxPopped b rxq txq => rw [rxq, List.length_cons] at hr; rw [txq]; omega
  | txPushed d room rxq txq => rw [rxq, txq, List.length_append, List.length_singleton]; omega
  | txPopped d rxq txq => rw [txq, List.length_cons] at ht; rw [rxq]; omega
  | cleared v _ rxq txq => rw [rxq, txq]; exact ⟨Nat.zero_le _, Nat.zero_le _⟩
  | statusAlone _ rxq txq => rw [rxq, txq]; exact ⟨hr, ht⟩
  | untouched rxq txq => rw [rxq, txq]; exact ⟨hr, ht⟩

/-- Power-on leaves both queues empty (R42). -/
theorem powerOn_queuesFit (p : Config.Params) : QueuesFit (State.powerOn p) := ⟨Nat.zero_le _, Nat.zero_le _⟩

/-- Every input keeps the queues within their capacities. -/
theorem runInput_queuesFit {e : Input} {s t : State} (h : runInput e s = .next t) (fit : QueuesFit s) :
    QueuesFit t := by
  obtain ⟨w, rfl⟩ | ⟨_, i, -, hx⟩ | ⟨m, -, rfl⟩ | ⟨-, rfl⟩ := runInput_next h
  · rw [abandon_spec]
    exact fit
  · exact exec_queuesFit hx fit
  · exact fit
  · exact powerOn_queuesFit s.params

/-- A push to a full TXQ is an overflow (R124). -/
theorem wrData_full {d : Byte} {s t : State} (h : exec (.wrData d) s = .next t)
    (full : s.txq.length = s.params.txCap) (op : s.usartState = .operational) (txen : s.cmd.getLsbD 0 = true) :
    t = (s.raise (.queueOverflow .tx d)).withReturned .nothing := by
  obtain ⟨nop, -⟩ | ⟨-, off, -⟩ | ⟨-, -, -, ht⟩ | ⟨-, -, room, -⟩ := execWrData_next h
  · exact absurd op nop
  · rw [txen] at off; cases off
  · exact ht
  · exact absurd full room

/-- Settles O34: the capacities are kept by every input, over the list of inputs, and each full push is an overflow. -/
theorem queuesNeverExceedCapacity : Obligations.QueuesNeverExceedCapacity := by
  refine ⟨fun es p t h => ?_, fun s t b full h => ?_, fun s t d full op txen h => ?_⟩
  · exact issueAll_keeps (P := QueuesFit) (Q := fun _ => True) (fun e s t _ fit h => runInput_queuesFit h fit)
      es (State.powerOn p) t (fun _ _ => trivial) (powerOn_queuesFit p) h
  · rw [rxPush_full h full]
    exact ⟨s.overflowRx_rxq b, s.overflowRx_trace b⟩
  · rw [wrData_full h full op txen]
    exact ⟨rfl, rfl⟩

end Sys2Proof.Machine
end

section
/-! SUPPORT. The fields of an operation word read off the number the word is, the decoder by those fields, and the
statement on the opcode map (R74) that follows from them. -/

namespace Sys2Proof.Machine

/-! ### The fields of a word as parts of a number -/

/-- Bits 11 to 8 of a word are the bits of `w.toNat / 256`. -/
theorem getLsbD_high (w : OpWord) (k : Nat) : w.getLsbD (k + 8) = (w.toNat / 256).testBit k :=
  (Nat.testBit_div_two_pow (n := 8) w.toNat k).symm

theorem fieldA_eq (w : OpWord) : fieldA w = (w.toNat / 256).testBit 3 := getLsbD_high w 3

theorem fieldV_eq (w : OpWord) : fieldV w = (w.toNat / 256).testBit 2 := getLsbD_high w 2

theorem fieldW_eq (w : OpWord) : fieldW w = (w.toNat / 256).testBit 1 := getLsbD_high w 1

theorem fieldC_eq (w : OpWord) : fieldC w = (w.toNat / 256).testBit 0 := getLsbD_high w 0

theorem fieldOP_eq (w : OpWord) : fieldOP w = BitVec.ofNat 3 (w.toNat / 256) := by
  simp [fieldOP, BitVec.extractLsb', Nat.shiftRight_eq_div_pow]

theorem fieldD_eq (w : OpWord) : fieldD w = BitVec.ofNat 8 w.toNat := by
  simp [fieldD, BitVec.extractLsb']

theorem connBit_eq (w : OpWord) : connBit w = decide (w.toNat % 2 = 1) :=
  Nat.testBit_zero w.toNat

/-- The internal reset bit of the operand is bit 6 of the word (R72, R73). -/
theorem getLsbD_fieldD_six (w : OpWord) : (fieldD w).getLsbD 6 = decide (w.toNat / 64 % 2 = 1) := by
  have bit : (fieldD w).getLsbD 6 = w.getLsbD 6 := by simp [fieldD]
  rw [bit]
  exact Nat.testBit_eq_decide_div_mod_eq

/-! ### The decoder by the fields -/

/-- A host cycle on an out-of-range port (R74, V = 0). -/
theorem decodeHost_other {w : OpWord} (hV : fieldV w = false) (st : UsartState) :
    decodeHost w st = if fieldW w then .wrOther (fieldD w) else .rdOther := by
  unfold decodeHost; rw [hV]

/-- A host cycle on the data port. -/
theorem decodeHost_data {w : OpWord} (hV : fieldV w = true) (hC : fieldC w = false) (st : UsartState) :
    decodeHost w st = if fieldW w then .wrData (fieldD w) else .rdData := by
  unfold decodeHost; rw [hV, hC]; cases fieldW w <;> rfl

/-- A host cycle on the control port. -/
theorem decodeHost_control {w : OpWord} (hV : fieldV w = true) (hC : fieldC w = true) (st : UsartState) :
    decodeHost w st = if fieldW w then controlWriteInstr st (fieldD w) else .rdStatus := by
  unfold decodeHost; rw [hV, hC]; cases fieldW w <;> rfl

/-- A control-port write is WR_MODE in Reset, and outside it bit 6 tells WR_IR from WR_CMD (R74, R141). -/
theorem controlWriteInstr_eq (st : UsartState) (v : Byte) :
    controlWriteInstr st v =
      if st = .reset then .wrMode v else if v.getLsbD 6 = true then .wrIr v else .wrCmd v := by
  unfold controlWriteInstr
  rw [controlWrite_eq]
  split_ifs <;> rfl

/-- OP = 000 is RXPUSH (R71). -/
theorem decodeCall_rxPush {w : OpWord} (h : fieldOP w = 0) : decodeCall w = .op (.rxPush (fieldD w)) := if_pos h

/-- OP = 001 is TXPOP (R71). -/
theorem decodeCall_txPop {w : OpWord} (h : fieldOP w = 1) : decodeCall w = .op .txPop := by
  unfold decodeCall; rw [h]; rfl

/-- OP = 010 is CONN_SET (R71). -/
theorem decodeCall_connSet {w : OpWord} (h : fieldOP w = 2) : decodeCall w = .op (.connSet (connBit w)) := by
  unfold decodeCall; rw [h]; rfl

/-- The five reserved values of OP are refused (R78). -/
theorem decodeCall_reserved {w : OpWord} (h : 3 ≤ (fieldOP w).toNat) :
    decodeCall w = .refused (.reservedCall (fieldOP w)) := by
  have ne (op : BitVec 3) (small : op.toNat < 3) : fieldOP w ≠ op := by
    rintro rfl; omega
  unfold decodeCall
  rw [if_neg (ne 0 (by decide)), if_neg (ne 1 (by decide)), if_neg (ne 2 (by decide))]

/-! ### The opcode map, by the number in bits 11 to 8 -/

/-- The fields of a host word are the bits of that number. -/
theorem fields_of_high {w : OpWord} {n : Nat} (h : w.toNat / 256 = n) :
    fieldA w = n.testBit 3 ∧ fieldV w = n.testBit 2 ∧ fieldW w = n.testBit 1 ∧ fieldC w = n.testBit 0 :=
  h ▸ ⟨fieldA_eq w, fieldV_eq w, fieldW_eq w, fieldC_eq w⟩

/-- Below 4 the cycle is on an out-of-range port, whichever C is (R74, V = 0). -/
theorem decode_other {w : OpWord} {n : Nat} (h : w.toNat / 256 = n) (lt : n < 4) (st : UsartState) :
    decode w st = .op (if n.testBit 1 then .wrOther (fieldD w) else .rdOther) := by
  obtain ⟨hA, hV, hW, -⟩ := fields_of_high h
  have A : n.testBit 3 = false := Nat.testBit_lt_two_pow (by omega)
  have V : n.testBit 2 = false := Nat.testBit_lt_two_pow (by omega)
  rw [decode_host (hA.trans A), decodeHost_other (hV.trans V), hW]

theorem decode_rdData {w : OpWord} (h : w.toNat / 256 = 4) (st : UsartState) : decode w st = .op .rdData := by
  obtain ⟨hA, hV, hW, hC⟩ : fieldA w = false ∧ fieldV w = true ∧ fieldW w = false ∧ fieldC w = false :=
    fields_of_high h
  rw [decode_host hA, decodeHost_data hV hC, hW]
  rfl

theorem decode_rdStatus {w : OpWord} (h : w.toNat / 256 = 5) (st : UsartState) : decode w st = .op .rdStatus := by
  obtain ⟨hA, hV, hW, hC⟩ : fieldA w = false ∧ fieldV w = true ∧ fieldW w = false ∧ fieldC w = true :=
    fields_of_high h
  rw [decode_host hA, decodeHost_control hV hC, hW]
  rfl

theorem decode_wrData {w : OpWord} (h : w.toNat / 256 = 6) (st : UsartState) :
    decode w st = .op (.wrData (fieldD w)) := by
  obtain ⟨hA, hV, hW, hC⟩ : fieldA w = false ∧ fieldV w = true ∧ fieldW w = true ∧ fieldC w = false :=
    fields_of_high h
  rw [decode_host hA, decodeHost_data hV hC, hW]
  rfl

/-- At 7 the cycle is a write on the control port, the one word whose meaning depends on `STATE` and bit 6 (R73). -/
theorem decode_controlWrite {w : OpWord} (h : w.toNat / 256 = 7) (st : UsartState) :
    decode w st = .op (if st = .reset then .wrMode (fieldD w) else
      if w.toNat / 64 % 2 = 1 then .wrIr (fieldD w) else .wrCmd (fieldD w)) := by
  obtain ⟨hA, hV, hW, hC⟩ : fieldA w = false ∧ fieldV w = true ∧ fieldW w = true ∧ fieldC w = true :=
    fields_of_high h
  rw [decode_host hA, decodeHost_control hV hC, if_pos hW, controlWriteInstr_eq, getLsbD_fieldD_six]
  simp only [decide_eq_true_eq]

/-- From 8 up the word is a background call, by bit 11 alone (R80). -/
theorem decode_call {w : OpWord} (h : 8 ≤ w.toNat / 256) (st : UsartState) : decode w st = decodeCall w := by
  refine decode_background ?_ st
  rw [fieldA_eq, Nat.testBit_eq_decide_div_mod_eq, decide_eq_true_eq]
  omega

/-- From 11 up the call is a reserved one (R78). -/
theorem decode_reserved {w : OpWord} (h : 11 ≤ w.toNat / 256) (st : UsartState) :
    decode w st = .refused (.reservedCall (fieldOP w)) := by
  have reserved : 3 ≤ (fieldOP w).toNat := by
    rw [fieldOP_eq, BitVec.toNat_ofNat]; omega
  rw [decode_call (by omega), decodeCall_reserved reserved]

/-- Settles O1: range by range, a host word by its port and direction and, for a control-port write, `STATE` and bit 6;
a background call by OP. -/
theorem decodeFollowsOpcodeMap : Obligations.DecodeFollowsOpcodeMap := by
  intro w st high low
  have hlow : fieldD w = low := fieldD_eq w
  have hop {n : Nat} (h : high = n) : fieldOP w = BitVec.ofNat 3 n := h ▸ fieldOP_eq w
  rw [← hlow, ← connBit_eq]
  refine ⟨?rdOther, ?wrOther, fun h => decode_rdData h st, fun h => decode_rdStatus h st, fun h => decode_wrData h st,
    ?wrMode, ?wrIr, ?wrCmd, ?rxPush, ?txPop, ?connSet, fun h => ⟨_, decode_reserved h st⟩⟩
  case rdOther =>
    rintro (h | h) <;> exact decode_other h (by decide) st
  case wrOther =>
    rintro (h | h) <;> exact decode_other h (by decide) st
  case wrMode =>
    intro h reset
    rw [decode_controlWrite h, if_pos reset]
  case wrIr =>
    intro h running set
    rw [decode_controlWrite h, if_neg running, if_pos set]
  case wrCmd =>
    intro h running clear
    rw [decode_controlWrite h, if_neg running, if_neg (by omega)]
  case rxPush =>
    intro h
    rw [decode_call (by omega), decodeCall_rxPush ((hop h).trans rfl)]
  case txPop =>
    intro h
    rw [decode_call (by omega), decodeCall_txPop ((hop h).trans rfl)]
  case connSet =>
    intro h
    rw [decode_call (by omega), decodeCall_connSet ((hop h).trans rfl)]

end Sys2Proof.Machine
end

section
/-! SUPPORT. A step that has an input, the abandoned cycle of a host word (R104), what its host latches (R105), and the
statements on the bus cycles that follow. -/

namespace Sys2Proof.Machine

/-! ### The step that takes an abandoned cycle -/

/-- A step with an input pending takes it off and runs it. -/
theorem step_of_pending {s : State} {e : Input} {rest : List Input} (h : s.pending = e :: rest) :
    step s = runInput e (s.withPending rest) := by
  unfold step runNext; rw [h]

/-- A word with bit 11 clear is a host cycle (R80). -/
theorem wordAgent_host {w : OpWord} (h : fieldA w = false) : wordAgent w = .host := by
  unfold wordAgent; rw [h]; rfl

/-- An abandoned host cycle does not run the decoded operation (R104). -/
theorem runWord_abandoned {w : OpWord} (host : fieldA w = false) (s : State) :
    runWord w .abandoned s = .next (s.abandon w) := by
  unfold runWord; rw [wordAgent_host host]

/-! ### What an abandoned cycle leaves the host -/

/-- A read cycle has W clear (R70). -/
theorem wordDirection_read {w : OpWord} (h : fieldW w = false) : wordDirection w = .read := by
  unfold wordDirection; rw [h]; rfl

/-- A write cycle has W set (R70). -/
theorem wordDirection_write {w : OpWord} (h : fieldW w = true) : wordDirection w = .write := if_pos h

/-- An abandoned read lets the host latch a free byte (R105). -/
theorem abandon_read_returned {w : OpWord} (h : fieldW w = false) (s : State) :
    (s.abandon w).returned = .toHost (Config.freeByte s.draws) := by
  unfold State.abandon; rw [wordDirection_read h]; rfl

/-- An abandoned write returns nothing and takes no free draw (R104). -/
theorem abandon_write_returned {w : OpWord} (h : fieldW w = true) (s : State) :
    (s.abandon w).returned = .nothing ∧ (s.abandon w).draws = s.draws := by
  unfold State.abandon; rw [wordDirection_write h]; exact ⟨rfl, rfl⟩

/-- Settles O9: the step is `State.abandon` on the state with the input taken off, whose frame is `abandon_spec`; the
direction alone tells what the host is left with. -/
theorem abandonedCycleOnlyRaisesBusTimeout : Obligations.AbandonedCycleOnlyRaisesBusTimeout := by
  intro s w rest pending host
  refine ⟨(s.withPending rest).abandon w, ?step, abandon_spec (s.withPending rest) w,
    fun write => abandon_write_returned write (s.withPending rest),
    fun read => ⟨_, abandon_read_returned read (s.withPending rest)⟩⟩
  case step =>
    calc step s = runWord w .abandoned (s.withPending rest) := step_of_pending pending
      _ = .next ((s.withPending rest).abandon w) := runWord_abandoned host _

/-! ### The out-of-range port -/

/-- Settles O20: both operations are one record and one returned value in every state, with no test on the state, so the
statement is the meaning of each (R108, R109) written out field by field. -/
theorem outOfRangePortResult : Obligations.OutOfRangePortResult :=
  ⟨fun _ => rfl, fun _ _ => rfl⟩

end Sys2Proof.Machine
end

section
/-! SUPPORT. The data port forwards: what RD_DATA (R121) and WR_DATA (R124) answer where each case's condition holds, and
the statements on the two that follow. -/

namespace Sys2Proof.Machine

/-! ### RD_DATA, case by case -/

/-- Outside Operational the read is recorded and the sentinel returned. -/
theorem exec_rdData_notOperational {s : State} (nop : s.usartState ≠ .operational) :
    exec .rdData s = .next ((s.raise .readNotOperational).withReturned (.toHost s.params.sentinel)) := if_neg nop

theorem exec_rdData_empty {s : State} (op : s.usartState = .operational) (empty : s.rxq = []) :
    exec .rdData s = .next (s.withReturned (.toHost s.params.sentinel)) := by
  change execRdData s = _
  unfold execRdData
  rw [if_pos op, empty]

theorem exec_rdData_head {s : State} {b : Byte} {rest : List Byte} (op : s.usartState = .operational)
    (head : s.rxq = b :: rest) : exec .rdData s = .next ((s.dropRx rest).withReturned (.toHost b)) := by
  change execRdData s = _
  unfold execRdData
  rw [if_pos op, head]

/-- Settles O14: the first two cases are the answer written out field by field; in the third the status and the frame are
those of the pop, which returning a byte keeps. -/
theorem rdDataResult : Obligations.RdDataResult := by
  refine ⟨fun _ nop => exec_rdData_notOperational nop, fun _ op empty => exec_rdData_empty op empty,
    fun s b rest op head => ?head⟩
  case head =>
    obtain ⟨status, frame⟩ := dropRx_spec s rest
    exact ⟨_, exec_rdData_head op head, status.withReturned _, congrArg (·.withReturned (.toHost b)) frame⟩

/-! ### WR_DATA, case by case, in the order of its checks (R212) -/

theorem exec_wrData_notOperational {s : State} (d : Byte) (nop : s.usartState ≠ .operational) :
    exec (.wrData d) s = .next ((s.raise (.writeDiscarded d .notOperational)).withReturned .nothing) := if_neg nop

theorem exec_wrData_txDisabled {s : State} (d : Byte) (op : s.usartState = .operational)
    (off : s.cmd.getLsbD 0 = false) :
    exec (.wrData d) s = .next ((s.raise (.writeDiscarded d .txDisabled)).withReturned .nothing) := by
  change execWrData d s = _
  unfold execWrData cmdTxen
  rw [if_pos op, if_neg (Bool.eq_false_iff.1 off)]

theorem exec_wrData_full {s : State} (d : Byte) (op : s.usartState = .operational)
    (txen : s.cmd.getLsbD 0 = true) (full : s.txq.length = s.params.txCap) :
    exec (.wrData d) s = .next ((s.raise (.queueOverflow .tx d)).withReturned .nothing) := by
  change execWrData d s = _
  unfold execWrData cmdTxen
  rw [if_pos op, if_pos txen, if_pos full]

theorem exec_wrData_room {s : State} (d : Byte) (op : s.usartState = .operational)
    (txen : s.cmd.getLsbD 0 = true) (room : s.txq.length ≠ s.params.txCap) :
    exec (.wrData d) s = .next (((s.pushTx d).handOff (handOffDest s.mm) d).withReturned .nothing) := by
  change execWrData d s = _
  unfold execWrData cmdTxen
  rw [if_pos op, if_pos txen, if_neg room]

/-- The modem mode alone chooses who takes the byte (R125). -/
theorem handOffDest_eq (m : ModemMode) : handOffDest m = if m = .command then .hayes else .network := by
  cases m <;> rfl

/-- Settles O15: each of the three dropped writes is one record; in the fourth case the status and the frame are those of
the push, which the hand-off and the return keep. -/
theorem wrDataResult : Obligations.WrDataResult := by
  refine ⟨fun _ d nop => exec_wrData_notOperational d nop, fun _ d op off => exec_wrData_txDisabled d op off,
    fun _ d op txen full => exec_wrData_full d op txen full, fun s d op txen room => ?room⟩
  case room =>
    obtain ⟨status, frame⟩ := pushTx_spec s d
    rw [← handOffDest_eq]
    exact ⟨_, exec_wrData_room d op txen room, (status.handOff _ d).withReturned _,
      congrArg (fun u => (u.handOff (handOffDest s.mm) d).withReturned .nothing) frame⟩

end Sys2Proof.Machine
end

section
/-! SUPPORT. The control port forwards: what RD_STATUS (R140), WR_MODE (R142), WR_CMD (R143 to R145) and WR_IR (R146)
answer where each is the control write of R141, and what one operation can do to `STATE`, said once. -/

namespace Sys2Proof.Machine

/-- Settles O16: the meaning (R140) written out; it tests nothing and writes the returned value alone. -/
theorem rdStatusResult : Obligations.RdStatusResult := fun _ => rfl

/-! ### Which control write a byte is (R141) -/

theorem controlWrite_reset {st : UsartState} (hst : st = .reset) (v : Byte) : controlWrite st v = .mode := by
  rw [controlWrite_eq, if_pos hst]

theorem controlWrite_internalReset {st : UsartState} {v : Byte} (hst : st ≠ .reset) (ir : v.getLsbD 6 = true) :
    controlWrite st v = .internalReset := by
  rw [controlWrite_eq, if_neg hst, if_pos ir]

theorem controlWrite_command {st : UsartState} {v : Byte} (hst : st ≠ .reset) (ir : v.getLsbD 6 = false) :
    controlWrite st v = .command := by
  rw [controlWrite_eq, if_neg hst, if_neg (Bool.eq_false_iff.1 ir)]

/-! ### What each control write answers -/

theorem exec_wrMode_reset {s : State} (hs : s.usartState = .reset) (v : Byte) :
    exec (.wrMode v) s = .next (((s.withMode v).withUsartState .modeInstruction).withReturned .nothing) := by
  change execWrMode v s = _
  unfold execWrMode
  rw [controlWrite_reset hs]

theorem exec_wrCmd_command {s : State} {v : Byte} (hs : s.usartState ≠ .reset) (ir : v.getLsbD 6 = false) :
    exec (.wrCmd v) s = .next ((s.storeCommand v (afterCommand s.usartState)).withReturned .nothing) := by
  change execWrCmd v s = _
  unfold execWrCmd
  rw [controlWrite_command hs ir]

theorem exec_wrIr_internalReset {s : State} {v : Byte} (hs : s.usartState ≠ .reset) (ir : v.getLsbD 6 = true) :
    exec (.wrIr v) s = .next (s.internalReset.withReturned .nothing) := by
  change execWrIr v s = _
  unfold execWrIr
  rw [controlWrite_internalReset hs ir]

/-- Where a command write leads from a state that takes commands (R143, R144, R145). -/
theorem afterCommand_eq {st : UsartState} (hst : st ≠ .reset) :
    afterCommand st = if st = .modeInstruction then .commandInstruction else .operational := by
  cases st with
  | reset => exact absurd rfl hst
  | modeInstruction => rfl
  | commandInstruction => rfl
  | operational => rfl

/-- No command write leads into Reset (R141). -/
theorem afterCommand_ne_reset (st : UsartState) : afterCommand st ≠ .reset := by cases st <;> decide

/-- Settles O18: the write runs as `State.storeCommand`, whose status and frame `storeCommand_spec` gives, and returning
nothing keeps both. -/
theorem wrCmdResult : Obligations.WrCmdResult := by
  intro s v ir hs
  obtain ⟨image, upper, frame⟩ := storeCommand_spec s v (afterCommand s.usartState)
  rw [← afterCommand_eq hs]
  exact ⟨_, exec_wrCmd_command hs ir, image.withReturned _, upper, congrArg (·.withReturned .nothing) frame⟩

/-- Settles O19: the write runs as `State.internalReset`, which takes no byte: all that is read of it is bit 6. -/
theorem wrIrResult : Obligations.WrIrResult := fun _ _ ir hs => exec_wrIr_internalReset hs ir

/-! ### The effect of an operation on `STATE` (R141) -/

/-- What the operation `i` does to `STATE` on the way from `s` to `t`. -/
inductive UsartStateEffect (i : Instr) (s t : State) : Prop
  /-- The mode byte is taken (R142). -/
  | modeWritten (v : Byte) (op : i = .wrMode v) (pre : s.usartState = .reset) (post : t.usartState = .modeInstruction)
  /-- A command byte is taken (R143, R144, R145). -/
  | commandWritten (v : Byte) (op : i = .wrCmd v) (ir : v.getLsbD 6 = false) (pre : s.usartState ≠ .reset)
      (post : t.usartState = afterCommand s.usartState)
  /-- An internal reset (R146). -/
  | internalReset (v : Byte) (op : i = .wrIr v) (ir : v.getLsbD 6 = true) (pre : s.usartState ≠ .reset)
      (post : t.usartState = .modeInstruction)
  /-- Every other operation leaves `STATE` as it is. -/
  | kept (post : t.usartState = s.usartState)

@[simp] theorem State.overflowRx_usartState (s : State) (b : Byte) : (s.overflowRx b).usartState = s.usartState := by
  rw [(overflowRx_spec s b).2]

/-- Every operation has one of the effects. -/
theorem exec_usartStateEffect {i : Instr} {s t : State} (h : exec i s = .next t) : UsartStateEffect i s t := by
  cases i with
  | rdData => obtain ⟨-, rfl⟩ | ⟨-, -, rfl⟩ | ⟨_, _, -, -, rfl⟩ := execRdData_next h <;> exact .kept rfl
  | rdStatus => cases h; exact .kept rfl
  | wrData d =>
    obtain ⟨-, rfl⟩ | ⟨-, -, rfl⟩ | ⟨-, -, -, rfl⟩ | ⟨-, -, -, rfl⟩ := execWrData_next h <;> exact .kept rfl
  | wrMode v => obtain ⟨pre, rfl⟩ := execWrMode_next h; exact .modeWritten v rfl pre rfl
  | wrCmd v => obtain ⟨pre, ir, rfl⟩ := execWrCmd_next h; exact .commandWritten v rfl ir pre rfl
  | wrIr v => obtain ⟨pre, ir, rfl⟩ := execWrIr_next h; exact .internalReset v rfl ir pre rfl
  | rdOther => cases h; exact .kept rfl
  | wrOther d => cases h; exact .kept rfl
  | rxPush b =>
    obtain ⟨-, rfl⟩ | ⟨-, rfl⟩ := execRxPush_next h
    · exact .kept (s.overflowRx_usartState b)
    · exact .kept rfl
  | txPop => obtain ⟨-, rfl⟩ | ⟨_, _, -, rfl⟩ := execTxPop_next h <;> exact .kept rfl
  | connSet c => cases h; exact .kept rfl

/-- Only the mode byte leads out of Reset (R142). -/
theorem wrMode_of_leaves_reset {i : Instr} {s t : State} (h : exec i s = .next t) (pre : s.usartState = .reset)
    (post : t.usartState ≠ .reset) : ∃ v, i = .wrMode v := by
  cases exec_usartStateEffect h with
  | modeWritten v op => exact ⟨v, op⟩
  | commandWritten _ _ _ notReset => exact absurd pre notReset
  | internalReset _ _ _ notReset => exact absurd pre notReset
  | kept same => exact absurd (same.trans pre) post

/-- No operation leads into Reset: the control writes end in other states, and the rest keep `STATE` (R141). -/
theorem reset_of_exec_reset {i : Instr} {s t : State} (h : exec i s = .next t) (post : t.usartState = .reset) :
    s.usartState = .reset := by
  cases exec_usartStateEffect h with
  | modeWritten _ _ pre => exact pre
  | commandWritten _ _ _ _ after => exact absurd (after.symm.trans post) (afterCommand_ne_reset _)
  | internalReset _ _ _ _ after => cases after.symm.trans post
  | kept same => exact same.symm.trans post

/-- Settles O17: the mode write's answer is a closed form; the ways out of Reset and into it are read off the effects on
`STATE`. -/
theorem wrModeResult : Obligations.WrModeResult :=
  ⟨fun _ v hs => exec_wrMode_reset hs v, fun _ _ _ h => ⟨wrMode_of_leaves_reset h, reset_of_exec_reset h⟩⟩

end Sys2Proof.Machine
end

section
/-! SUPPORT. The background queue operations forwards: what RXPUSH (R160, R161) and TXPOP (R163) answer where each case's
condition holds, and the statements on the two that follow. -/

namespace Sys2Proof.Machine

/-! ### RXPUSH, case by case -/

theorem exec_rxPush_room {s : State} (b : Byte) (room : s.rxq.length ≠ s.params.rxCap) :
    exec (.rxPush b) s = .next ((s.pushRx b).withReturned .nothing) := if_neg room

theorem exec_rxPush_full {s : State} (b : Byte) (full : s.rxq.length = s.params.rxCap) :
    exec (.rxPush b) s = .next ((s.overflowRx b).withReturned .nothing) := if_pos full

/-- The recompute of a push sees the byte it has just appended (R28, R160). -/
theorem pushRx_rxrdy (s : State) (b : Byte) : (s.pushRx b).status.getLsbD 1 = true := by
  have image : ImageHolds (s.pushRx b) := (pushRx_spec s b).1.1
  have nonempty : (s.pushRx b).rxq ≠ [] := List.concat_ne_nil b s.rxq
  rw [image.rxrdy, decide_eq_true nonempty]

/-- Settles O21: with room the status and the frame are those of the push, on a full RXQ those of the overflow; returning
nothing keeps both. -/
theorem rxPushResult : Obligations.RxPushResult := by
  refine ⟨fun s b room => ?room, fun s b full => ?full⟩
  case room =>
    obtain ⟨status, frame⟩ := pushRx_spec s b
    exact ⟨_, exec_rxPush_room b room, status.withReturned _, pushRx_rxrdy s b,
      congrArg (·.withReturned .nothing) frame⟩
  case full =>
    obtain ⟨status, frame⟩ := overflowRx_spec s b
    exact ⟨_, exec_rxPush_full b full, status, congrArg (·.withReturned .nothing) frame⟩

/-! ### TXPOP, case by case: no register is tested, TXEN included -/

theorem exec_txPop_empty {s : State} (empty : s.txq = []) :
    exec .txPop s = .next (s.withReturned (.toBackground none)) := by
  change execTxPop s = _
  unfold execTxPop
  rw [empty]

theorem exec_txPop_head {s : State} {b : Byte} {rest : List Byte} (head : s.txq = b :: rest) :
    exec .txPop s = .next ((s.dropTx rest).withReturned (.toBackground (some b))) := by
  change execTxPop s = _
  unfold execTxPop
  rw [head]

/-- Settles O22: an empty TXQ is the answer written out; otherwise the status and the frame are those of the pop, which
returning the byte keeps. -/
theorem txPopResult : Obligations.TxPopResult := by
  refine ⟨fun _ empty => exec_txPop_empty empty, fun s b rest head => ?head⟩
  case head =>
    obtain ⟨status, frame⟩ := dropTx_spec s rest
    exact ⟨_, exec_txPop_head head, status.withReturned _, congrArg (·.withReturned (.toBackground (some b))) frame⟩

end Sys2Proof.Machine
end

section
/-! SUPPORT. What one operation can do to `TRACE`, said once; that each row of R200's table is raised where it says; and
the statement on the conditions (R200) that follows from the two. -/

namespace Sys2Proof.Machine

/-! ### From an operation that ran to the table -/

/-- What the operation `i` appends to `TRACE` on the way from `s` to `t`. -/
inductive TraceEffect (i : Instr) (s t : State) : Prop
  /-- Nothing is appended. -/
  | kept (trace : t.trace = s.trace)
  /-- A data write hands its byte on (R125). -/
  | handedOff (d : Byte) (dest : HandOffDest) (op : i = .wrData d) (trace : t.trace = s.trace ++ [.handOff dest d])
  /-- A condition of R200's table is raised. -/
  | raised (c : Condition) (row : RaisedBy i s c) (trace : t.trace = s.trace ++ [.raised c])

theorem execRdData_traceEffect {s t : State} (h : execRdData s = .next t) : TraceEffect .rdData s t := by
  obtain ⟨nop, rfl⟩ | ⟨-, -, rfl⟩ | ⟨_, _, -, -, rfl⟩ := execRdData_next h
  · exact .raised .readNotOperational ⟨rfl, nop⟩ rfl
  · exact .kept rfl
  · exact .kept rfl

theorem execWrData_traceEffect {d : Byte} {s t : State} (h : execWrData d s = .next t) :
    TraceEffect (.wrData d) s t := by
  obtain ⟨nop, rfl⟩ | ⟨op, off, rfl⟩ | ⟨op, txen, full, rfl⟩ | ⟨-, -, -, rfl⟩ := execWrData_next h
  · exact .raised (.writeDiscarded d .notOperational) ⟨rfl, nop⟩ rfl
  · exact .raised (.writeDiscarded d .txDisabled) ⟨rfl, op, off⟩ rfl
  · exact .raised (.queueOverflow .tx d) ⟨rfl, op, txen, full⟩ rfl
  · exact .handedOff d (handOffDest s.mm) rfl rfl

theorem execRxPush_traceEffect {b : Byte} {s t : State} (h : execRxPush b s = .next t) :
    TraceEffect (.rxPush b) s t := by
  obtain ⟨full, rfl⟩ | ⟨-, rfl⟩ := execRxPush_next h
  · exact .raised (.queueOverflow .rx b) ⟨rfl, full⟩ (s.overflowRx_trace b)
  · exact .kept rfl

/-- Every operation has one of the effects. -/
theorem exec_traceEffect {i : Instr} {s t : State} (h : exec i s = .next t) : TraceEffect i s t := by
  cases i with
  | rdData => exact execRdData_traceEffect h
  | rdStatus => cases h; exact .kept rfl
  | wrData d => exact execWrData_traceEffect h
  | wrMode v => obtain ⟨-, rfl⟩ := execWrMode_next h; exact .kept rfl
  | wrCmd v => obtain ⟨-, -, rfl⟩ := execWrCmd_next h; exact .kept rfl
  | wrIr v => obtain ⟨-, -, rfl⟩ := execWrIr_next h; exact .kept rfl
  | rdOther => cases h; exact .raised (.invalidRegisterAccess .read) rfl rfl
  | wrOther d => cases h; exact .raised (.invalidRegisterAccess .write) ⟨d, rfl⟩ rfl
  | rxPush b => exact execRxPush_traceEffect h
  | txPop => obtain ⟨-, rfl⟩ | ⟨_, _, -, rfl⟩ := execTxPop_next h <;> exact .kept rfl
  | connSet c => cases h; exact .kept rfl

/-! ### From the table to the operation: each row's case is one the operation takes -/

theorem exec_queueOverflow {i : Instr} {s : State} {q : QueueId} {b : Byte}
    (row : RaisedBy i s (.queueOverflow q b)) :
    ∃ t, exec i s = .next t ∧ t.trace = s.trace ++ [.raised (.queueOverflow q b)] := by
  cases q with
  | tx =>
    obtain ⟨rfl, op, txen, full⟩ := row
    exact ⟨_, exec_wrData_full b op txen full, rfl⟩
  | rx =>
    obtain ⟨rfl, full⟩ := row
    exact ⟨_, exec_rxPush_full b full, s.overflowRx_trace b⟩

theorem exec_writeDiscarded {i : Instr} {s : State} {b : Byte} {r : DiscardReason}
    (row : RaisedBy i s (.writeDiscarded b r)) :
    ∃ t, exec i s = .next t ∧ t.trace = s.trace ++ [.raised (.writeDiscarded b r)] := by
  cases r with
  | notOperational =>
    obtain ⟨rfl, nop⟩ := row
    exact ⟨_, exec_wrData_notOperational b nop, rfl⟩
  | txDisabled =>
    obtain ⟨rfl, op, off⟩ := row
    exact ⟨_, exec_wrData_txDisabled b op off, rfl⟩

theorem exec_invalidRegisterAccess {i : Instr} {s : State} {dir : Direction}
    (row : RaisedBy i s (.invalidRegisterAccess dir)) :
    ∃ t, exec i s = .next t ∧ t.trace = s.trace ++ [.raised (.invalidRegisterAccess dir)] := by
  cases dir with
  | read => cases row; exact ⟨_, rfl, rfl⟩
  | write => obtain ⟨d, rfl⟩ := row; exact ⟨_, rfl, rfl⟩

/-- Where the table gives the operation a condition, the operation completes and appends that condition. BusTimeout is
in no operation's row: an abandoned cycle runs none (R104). -/
theorem exec_raises {i : Instr} {s : State} {c : Condition} (row : RaisedBy i s c) :
    ∃ t, exec i s = .next t ∧ t.trace = s.trace ++ [.raised c] := by
  cases c with
  | busTimeout port dir => exact row.elim
  | invalidRegisterAccess dir => exact exec_invalidRegisterAccess row
  | queueOverflow q b => exact exec_queueOverflow row
  | readNotOperational =>
    obtain ⟨rfl, nop⟩ := row
    exact ⟨_, exec_rdData_notOperational nop, rfl⟩
  | writeDiscarded b r => exact exec_writeDiscarded row

/-- Settles O28: the effects on `TRACE` one way, the rows of the table the other way; an abandoned cycle's record is in
its frame, and the codes are the table's. -/
theorem operationsRaiseOnlyTheirConditions : Obligations.OperationsRaiseOnlyTheirConditions := by
  refine ⟨fun i s t h => ?effect, fun _ _ _ row => exec_raises row,
    fun s w => congrArg State.trace (abandon_spec s w), fun _ _ _ _ _ => ⟨rfl, rfl, rfl, rfl, rfl⟩⟩
  case effect =>
    cases exec_traceEffect h with
    | kept trace => exact .inl trace
    | handedOff d dest op trace => exact .inr (.inl ⟨d, dest, op, trace⟩)
    | raised c row trace => exact .inr (.inr ⟨c, row, trace⟩)

end Sys2Proof.Machine
end

section
/-! SUPPORT. A word as its bits 11 to 8 and its operand byte, and the statements that the encoder, the decoder and the
opcode table agree (R74, R75, R79). -/

namespace Sys2Proof.Machine

/-! ### The parts of a word: an operand placed in it, and a mask over it -/

/-- An operand byte reaches no bit above 7 (R72). -/
theorem high_withOperand (base : OpWord) (d : Byte) : (withOperand base d).toNat / 256 = base.toNat / 256 := by
  have small : d.toNat / 256 = 0 := Nat.div_eq_of_lt d.isLt
  have fits : d.toNat % 4096 = d.toNat := Nat.mod_eq_of_lt (by omega)
  rw [withOperand, BitVec.toNat_or, BitVec.toNat_setWidth, fits, Nat.or_div_two_pow (n := 8), small, Nat.or_zero]

theorem fieldD_withOperand {base : OpWord} (clear : fieldD base = 0#8) (d : Byte) :
    fieldD (withOperand base d) = d := by
  have low : (d.setWidth 12).extractLsb' 0 8 = d := by
    ext k hk; simp [hk]; omega
  rw [fieldD] at clear ⊢
  rw [withOperand, BitVec.extractLsb'_or, low, clear, BitVec.zero_or]

/-- Every word is its bits 11 to 8 with its low byte as the operand. -/
theorem eq_withOperand {w : OpWord} {n : Nat} (h : w.toNat / 256 = n) :
    w = withOperand (BitVec.ofNat 12 (2 ^ 8 * n)) (fieldD w) := by
  have width : w.toNat < 4096 := w.isLt
  refine BitVec.eq_of_toNat_eq ?_
  rw [withOperand, BitVec.toNat_or, BitVec.toNat_ofNat, BitVec.toNat_setWidth, fieldD_eq, BitVec.toNat_ofNat,
    Nat.mod_eq_of_lt (by omega : 2 ^ 8 * n < 2 ^ 12), Nat.mod_eq_of_lt (by omega : w.toNat % 2 ^ 8 < 2 ^ 12),
    ← Nat.two_pow_add_eq_or_of_lt (by omega)]
  omega

/-- A mask acts on the base and on the operand apart. -/
theorem withOperand_and (base m : OpWord) (d : Byte) :
    withOperand base d &&& m = withOperand (base &&& m) (d &&& fieldD m) := by
  ext k hk
  by_cases low : k < 8
  · simp [withOperand, fieldD, low, hk, Bool.and_or_distrib_right]
  · simp [withOperand, BitVec.getLsbD_of_ge _ k (Nat.le_of_not_lt low)]

theorem withOperand_and_of_ignored {m : OpWord} (ignored : fieldD m = 0#8) (base : OpWord) (d : Byte) :
    withOperand base d &&& m = base &&& m := by
  rw [withOperand_and, ignored, BitVec.and_zero, withOperand, BitVec.setWidth_zero, BitVec.or_zero]

theorem withOperand_and_of_kept {m : OpWord} (kept : fieldD m = BitVec.allOnes 8) (base : OpWord) (d : Byte) :
    withOperand base d &&& m = withOperand (base &&& m) d := by
  rw [withOperand_and, kept, BitVec.and_allOnes]

/-- A mask that keeps the bits from `k` up keeps their number. -/
theorem div_two_pow_of_and {w m v : OpWord} (k : Nat) (h : w &&& m = v) (kept : m.toNat / 2 ^ k = 2 ^ (12 - k) - 1)
    (hk : k ≤ 12) : w.toNat / 2 ^ k = v.toNat / 2 ^ k := by
  have high : w.toNat / 2 ^ k < 2 ^ (12 - k) := by
    rw [Nat.div_lt_iff_lt_mul (Nat.two_pow_pos k), ← Nat.pow_add, Nat.sub_add_cancel hk]
    exact w.isLt
  calc w.toNat / 2 ^ k = w.toNat / 2 ^ k &&& m.toNat / 2 ^ k := by
        rw [kept, Nat.and_two_pow_sub_one_of_lt_two_pow high]
    _ = (w &&& m).toNat / 2 ^ k := by rw [BitVec.toNat_and, Nat.and_div_two_pow]
    _ = v.toNat / 2 ^ k := by rw [h]

/-- What a mask that keeps bits 11 to 8 says of the word's number in them. -/
theorem high_of_and {w m v : OpWord} (h : w &&& m = v) (kept : m.toNat / 256 = 15) :
    w.toNat / 256 = v.toNat / 256 := div_two_pow_of_and 8 h kept (by decide)

/-! ### The decoder, row by row -/

/-- On an out-of-range port bit 8 is ignored (R75). -/
theorem decode_rdOther {w : OpWord} (h : w.toNat / 512 = 0) (st : UsartState) : decode w st = .op .rdOther := by
  obtain high | high : w.toNat / 256 = 0 ∨ w.toNat / 256 = 1 := by omega
  · exact decode_other high (by decide) st
  · exact decode_other high (by decide) st

theorem decode_wrOther {w : OpWord} (h : w.toNat / 512 = 1) (st : UsartState) :
    decode w st = .op (.wrOther (fieldD w)) := by
  obtain high | high : w.toNat / 256 = 2 ∨ w.toNat / 256 = 3 := by omega
  · exact decode_other high (by decide) st
  · exact decode_other high (by decide) st

theorem decode_wrControl {w : OpWord} (h : w.toNat / 256 = 7) (st : UsartState) :
    decode w st = .op (controlWriteInstr st (fieldD w)) := by
  obtain ⟨hA, hV, hW, hC⟩ : fieldA w = false ∧ fieldV w = true ∧ fieldW w = true ∧ fieldC w = true :=
    fields_of_high h
  rw [decode_host hA, decodeHost_control hV hC, if_pos hW]

/-- OP is the number in bits 11 to 8 without the format bit (R71). -/
theorem fieldOP_of_high {w : OpWord} {n : Nat} (h : w.toNat / 256 = n) : fieldOP w = BitVec.ofNat 3 n :=
  h ▸ fieldOP_eq w

theorem decode_rxPush {w : OpWord} (h : w.toNat / 256 = 8) (st : UsartState) :
    decode w st = .op (.rxPush (fieldD w)) := by
  rw [decode_call (by omega), decodeCall_rxPush ((fieldOP_of_high h).trans rfl)]

theorem decode_txPop {w : OpWord} (h : w.toNat / 256 = 9) (st : UsartState) : decode w st = .op .txPop := by
  rw [decode_call (by omega), decodeCall_txPop ((fieldOP_of_high h).trans rfl)]

theorem decode_connSet {w : OpWord} (h : w.toNat / 256 = 10) (st : UsartState) :
    decode w st = .op (.connSet (connBit w)) := by
  rw [decode_call (by omega), decodeCall_connSet ((fieldOP_of_high h).trans rfl)]

/-! ### The control write's operation (R73, R141) -/

theorem controlWriteInstr_mode {st : UsartState} (hst : st = .reset) (v : Byte) :
    controlWriteInstr st v = .wrMode v := by
  rw [controlWriteInstr_eq, if_pos hst]

theorem controlWriteInstr_internalReset {st : UsartState} {v : Byte} (hst : st ≠ .reset) (ir : v.getLsbD 6 = true) :
    controlWriteInstr st v = .wrIr v := by
  rw [controlWriteInstr_eq, if_neg hst, if_pos ir]

theorem controlWriteInstr_command {st : UsartState} {v : Byte} (hst : st ≠ .reset) (ir : v.getLsbD 6 = false) :
    controlWriteInstr st v = .wrCmd v := by
  rw [controlWriteInstr_eq, if_neg hst, if_neg (Bool.eq_false_iff.1 ir)]

/-- A control write is one of three operations, each under its row's condition (R75). -/
theorem controlWriteInstr_cases (st : UsartState) (v : Byte) :
    (st = .reset ∧ controlWriteInstr st v = .wrMode v) ∨
    (st ≠ .reset ∧ v.getLsbD 6 = true ∧ controlWriteInstr st v = .wrIr v) ∨
    (st ≠ .reset ∧ v.getLsbD 6 = false ∧ controlWriteInstr st v = .wrCmd v) := by
  by_cases hst : st = .reset
  · exact .inl ⟨hst, controlWriteInstr_mode hst v⟩
  · cases ir : v.getLsbD 6
    · exact .inr (.inr ⟨hst, rfl, controlWriteInstr_command hst ir⟩)
    · exact .inr (.inl ⟨hst, rfl, controlWriteInstr_internalReset hst ir⟩)

theorem availableIn_wrMode {st : UsartState} {v : Byte} : (Instr.wrMode v).availableIn st = true ↔ st = .reset :=
  beq_iff_eq

theorem availableIn_wrCmd {st : UsartState} {v : Byte} : (Instr.wrCmd v).availableIn st = true ↔ st ≠ .reset :=
  bne_iff_ne

theorem availableIn_wrIr {st : UsartState} {v : Byte} : (Instr.wrIr v).availableIn st = true ↔ st ≠ .reset :=
  bne_iff_ne

theorem wellFormed_wrCmd {v : Byte} : (Instr.wrCmd v).wellFormed = true ↔ v.getLsbD 6 = false :=
  Bool.not_eq_eq_eq_not

/-! ### From the canonical word to the operation -/

/-- Where no bit is ignored, the word is the canonical one: its two parts are those of the row. -/
theorem parts_of_whole {w base : OpWord} {d : Byte} (h : w &&& 0xFFF#12 = withOperand base d)
    (clear : fieldD base = 0#8) : w.toNat / 256 = base.toNat / 256 ∧ fieldD w = d := by
  rw [show 0xFFF#12 = BitVec.allOnes 12 from rfl, BitVec.and_allOnes] at h
  rw [h]
  exact ⟨high_withOperand base d, fieldD_withOperand clear d⟩

/-- A word that agrees with an operation's canonical word in the bits its row does not ignore decodes to the operation,
in every `STATE` of the row (R75). -/
theorem decode_of_significant {i : Instr} {st : UsartState} {w : OpWord} (wf : i.wellFormed = true)
    (avail : i.availableIn st = true) (h : w &&& significantBits i = encode i) : decode w st = .op i := by
  cases i with
  | rdData => exact decode_rdData (high_of_and h (by decide)) st
  | rdStatus => exact decode_rdStatus (high_of_and h (by decide)) st
  | wrData d =>
    obtain ⟨high, low⟩ := parts_of_whole (base := 0x600#12) (d := d) h rfl
    rw [decode_wrData high, low]
  | wrMode v =>
    obtain ⟨high, low⟩ := parts_of_whole (base := 0x700#12) (d := v) h rfl
    rw [decode_wrControl high, low, controlWriteInstr_mode (availableIn_wrMode.1 avail)]
  | wrCmd v =>
    obtain ⟨high, low⟩ := parts_of_whole (base := 0x700#12) (d := v) h rfl
    rw [decode_wrControl high, low, controlWriteInstr_command (availableIn_wrCmd.1 avail) (wellFormed_wrCmd.1 wf)]
  | wrIr v =>
    obtain ⟨high, low⟩ := parts_of_whole (base := 0x700#12) (d := v) h rfl
    rw [decode_wrControl high, low, controlWriteInstr_internalReset (availableIn_wrIr.1 avail) wf]
  | rdOther => exact decode_rdOther (div_two_pow_of_and 9 h (by decide) (by decide)) st
  | wrOther d =>
    have low : fieldD w = d := by
      have kept : fieldD (w &&& 0xEFF#12) = fieldD w := by
        rw [fieldD, BitVec.extractLsb'_and]
        exact BitVec.and_allOnes
      rw [← kept]
      exact (congrArg fieldD h).trans (fieldD_withOperand rfl d)
    have high : w.toNat / 512 = (withOperand 0x200#12 d).toNat / 512 :=
      div_two_pow_of_and (m := 0xEFF#12) 9 h (by decide) (by decide)
    have base : (withOperand 0x200#12 d).toNat / 256 = 2 := high_withOperand 0x200#12 d
    rw [decode_wrOther (by omega), low]
  | rxPush b =>
    obtain ⟨high, low⟩ := parts_of_whole (base := 0x800#12) (d := b) h rfl
    rw [decode_rxPush high, low]
  | txPop => exact decode_txPop (high_of_and h (by decide)) st
  | connSet c =>
    have high : w.toNat / 256 = (encode (.connSet c)).toNat / 256 := high_of_and (m := 0xF01#12) h (by decide)
    have bit : connBit w = connBit (encode (.connSet c)) := by
      rw [← h, connBit, connBit, BitVec.getLsbD_and, significantBits, show (0xF01#12).getLsbD 0 = true from rfl,
        Bool.and_true]
    rw [decode_connSet (high.trans (by cases c <;> rfl)), bit]
    cases c <;> rfl

/-- The canonical word has its ignored bits clear (R70, R71, R81). -/
theorem encode_and_significantBits (i : Instr) : encode i &&& significantBits i = encode i := by
  have whole (w : OpWord) : w &&& 0xFFF#12 = w := BitVec.and_allOnes
  cases i with
  | rdData => rfl
  | rdStatus => rfl
  | wrData d => exact whole _
  | wrMode v => exact whole _
  | wrCmd v => exact whole _
  | wrIr v => exact whole _
  | rdOther => rfl
  | wrOther d => exact withOperand_and_of_kept (m := 0xEFF#12) rfl _ d
  | rxPush b => exact whole _
  | txPop => rfl
  | connSet c => cases c <;> rfl

/-- Settles O2: the canonical word is one of the words that agree with it in the bits its row does not ignore. -/
theorem decodeOfEncodeIsIdentity : Obligations.DecodeOfEncodeIsIdentity :=
  fun i _ wf avail => decode_of_significant wf avail (encode_and_significantBits i)

/-! ### From the word to the operation, and back -/

/-- The operation a word decodes to, by the number in its upper bits (R74). -/
inductive DecodeCase (w : OpWord) (st : UsartState) : Instr → Prop
  | rdOther (high : w.toNat / 512 = 0) : DecodeCase w st .rdOther
  | wrOther (high : w.toNat / 512 = 1) : DecodeCase w st (.wrOther (fieldD w))
  | rdData (high : w.toNat / 256 = 4) : DecodeCase w st .rdData
  | rdStatus (high : w.toNat / 256 = 5) : DecodeCase w st .rdStatus
  | wrData (high : w.toNat / 256 = 6) : DecodeCase w st (.wrData (fieldD w))
  | wrControl (high : w.toNat / 256 = 7) : DecodeCase w st (controlWriteInstr st (fieldD w))
  | rxPush (high : w.toNat / 256 = 8) : DecodeCase w st (.rxPush (fieldD w))
  | txPop (high : w.toNat / 256 = 9) : DecodeCase w st .txPop
  | connSet (high : w.toNat / 256 = 10) : DecodeCase w st (.connSet (connBit w))

/-- Every word below 11 in bits 11 to 8 decodes to an operation. -/
theorem decode_of_not_reserved {w : OpWord} (h : w.toNat / 256 < 11) (st : UsartState) :
    ∃ i, decode w st = .op i ∧ DecodeCase w st i := by
  obtain high | high | high | high | high | high | high | high | high :
    w.toNat / 512 = 0 ∨ w.toNat / 512 = 1 ∨ w.toNat / 256 = 4 ∨ w.toNat / 256 = 5 ∨ w.toNat / 256 = 6 ∨
      w.toNat / 256 = 7 ∨ w.toNat / 256 = 8 ∨ w.toNat / 256 = 9 ∨ w.toNat / 256 = 10 := by omega
  · exact ⟨_, decode_rdOther high st, .rdOther high⟩
  · exact ⟨_, decode_wrOther high st, .wrOther high⟩
  · exact ⟨_, decode_rdData high st, .rdData high⟩
  · exact ⟨_, decode_rdStatus high st, .rdStatus high⟩
  · exact ⟨_, decode_wrData high st, .wrData high⟩
  · exact ⟨_, decode_wrControl high st, .wrControl high⟩
  · exact ⟨_, decode_rxPush high st, .rxPush high⟩
  · exact ⟨_, decode_txPop high st, .txPop high⟩
  · exact ⟨_, decode_connSet high st, .connSet high⟩

theorem decode_cases {w : OpWord} {st : UsartState} {i : Instr} (h : decode w st = .op i) : DecodeCase w st i := by
  by_cases reserved : 11 ≤ w.toNat / 256
  · rw [decode_reserved reserved] at h
    cases h
  · obtain ⟨j, hj, row⟩ := decode_of_not_reserved (Nat.lt_of_not_le reserved) st
    cases hj.symm.trans h
    exact row

/-- The three operations of a control write have one canonical word (R75). -/
theorem encode_controlWriteInstr (st : UsartState) (v : Byte) :
    encode (controlWriteInstr st v) = withOperand 0x700#12 v := by
  obtain ⟨-, op⟩ | ⟨-, -, op⟩ | ⟨-, -, op⟩ := controlWriteInstr_cases st v <;> rw [op] <;> rfl

theorem significantBits_controlWriteInstr (st : UsartState) (v : Byte) :
    significantBits (controlWriteInstr st v) = 0xFFF#12 := by
  obtain ⟨-, op⟩ | ⟨-, -, op⟩ | ⟨-, -, op⟩ := controlWriteInstr_cases st v <;> rw [op] <;> rfl

/-- A control write's operation meets its row's condition in the state it is decoded in. -/
theorem controlWriteInstr_allowed (st : UsartState) (v : Byte) :
    (controlWriteInstr st v).wellFormed = true ∧ (controlWriteInstr st v).availableIn st = true := by
  obtain ⟨hst, op⟩ | ⟨hst, ir, op⟩ | ⟨hst, ir, op⟩ := controlWriteInstr_cases st v <;> rw [op]
  · exact ⟨rfl, availableIn_wrMode.2 hst⟩
  · exact ⟨ir, availableIn_wrIr.2 hst⟩
  · exact ⟨wellFormed_wrCmd.2 ir, availableIn_wrCmd.2 hst⟩

/-- A decoded operation meets its row's condition (R75). -/
theorem decode_allowed {w : OpWord} {st : UsartState} {i : Instr} (h : decode w st = .op i) :
    i.wellFormed = true ∧ i.availableIn st = true := by
  cases decode_cases h with
  | wrControl => exact controlWriteInstr_allowed st (fieldD w)
  | _ => exact ⟨rfl, rfl⟩

/-- CONN_SET's row keeps, of the low byte, bit 0 (R71, R75). -/
theorem and_connSet_bits {w : OpWord} (high : w.toNat / 256 = 10) :
    w &&& 0xF01#12 = encode (.connSet (connBit w)) := by
  have bit : connBit w = (fieldD w).getLsbD 0 := by simp [connBit, fieldD]
  have one : fieldD w &&& fieldD 0xF01#12 = (BitVec.ofBool ((fieldD w).getLsbD 0)).setWidth 8 :=
    BitVec.and_one_eq_setWidth_ofBool_getLsbD
  have parts : w &&& 0xF01#12 = withOperand 0xA00#12 (fieldD w &&& fieldD 0xF01#12) :=
    (congrArg (· &&& 0xF01#12) (eq_withOperand high)).trans (withOperand_and ..)
  rw [parts, one, bit]
  cases (fieldD w).getLsbD 0 <;> rfl

/-- A decoded operation's canonical word is the word with its ignored bits cleared (R79). -/
theorem encode_of_decode {w : OpWord} {st : UsartState} {i : Instr} (h : decode w st = .op i) :
    encode i = w &&& significantBits i := by
  have ignored {n : Nat} (m : OpWord) (high : w.toNat / 256 = n) (hm : fieldD m = 0#8) :
      w &&& m = BitVec.ofNat 12 (2 ^ 8 * n) &&& m := by
    rw [eq_withOperand high, withOperand_and_of_ignored hm]
  have kept {n : Nat} (m : OpWord) (high : w.toNat / 256 = n) (hm : fieldD m = BitVec.allOnes 8) :
      w &&& m = withOperand (BitVec.ofNat 12 (2 ^ 8 * n) &&& m) (fieldD w) :=
    (congrArg (· &&& m) (eq_withOperand high)).trans (withOperand_and_of_kept hm _ _)
  cases decode_cases h with
  | rdOther high =>
    obtain high | high : w.toNat / 256 = 0 ∨ w.toNat / 256 = 1 := by omega
    · exact (ignored 0xE00#12 high rfl).symm
    · exact (ignored 0xE00#12 high rfl).symm
  | wrOther high =>
    obtain high | high : w.toNat / 256 = 2 ∨ w.toNat / 256 = 3 := by omega
    · exact (kept 0xEFF#12 high rfl).symm
    · exact (kept 0xEFF#12 high rfl).symm
  | rdData high => exact (ignored 0xF00#12 high rfl).symm
  | rdStatus high => exact (ignored 0xF00#12 high rfl).symm
  | wrData high => exact (kept 0xFFF#12 high rfl).symm
  | wrControl high =>
    rw [encode_controlWriteInstr, significantBits_controlWriteInstr]
    exact (kept 0xFFF#12 high rfl).symm
  | rxPush high => exact (kept 0xFFF#12 high rfl).symm
  | txPop high => exact (ignored 0xF00#12 high rfl).symm
  | connSet high => exact (and_connSet_bits high).symm

theorem wordAgent_encode (i : Instr) : wordAgent (encode i) = i.agent := by
  cases i with
  | rdData => exact Laws.AgentBit.rdData
  | rdStatus => exact Laws.AgentBit.rdStatus
  | wrData d => exact Laws.AgentBit.wrData d
  | wrMode v => exact Laws.AgentBit.wrMode v
  | wrCmd v => exact Laws.AgentBit.wrCmd v
  | wrIr v => exact Laws.AgentBit.wrIr v
  | rdOther => exact Laws.AgentBit.rdOther
  | wrOther d => exact Laws.AgentBit.wrOther d
  | rxPush b => exact Laws.AgentBit.rxPush b
  | txPop => exact Laws.AgentBit.txPop
  | connSet c => exact Laws.AgentBit.connSet c

/-- No row ignores bit 11 (R80). -/
theorem fieldA_significantBits (i : Instr) : fieldA (significantBits i) = true := by
  cases i <;> simp [significantBits, fieldA]

/-- A decoded operation is of the agent that bit 11 names (R80). -/
theorem agent_of_decode {w : OpWord} {st : UsartState} {i : Instr} (h : decode w st = .op i) :
    i.agent = wordAgent w := by
  have bit : fieldA (encode i) = fieldA w := by
    rw [encode_of_decode h, fieldA, BitVec.getLsbD_and]
    exact (congrArg (fieldA w && ·) (fieldA_significantBits i)).trans (Bool.and_true _)
  rw [← wordAgent_encode i, wordAgent, bit, wordAgent]

/-- Settles O3: the row's condition, the agent and the canonical word are read off the case of the decoder. -/
theorem encodeOfDecodeClearsIgnoredBits : Obligations.EncodeOfDecodeClearsIgnoredBits := by
  intro w st i h
  obtain ⟨wf, avail⟩ := decode_allowed h
  exact ⟨wf, avail, agent_of_decode h, encode_of_decode h⟩

/-- Settles O4: both words agree with the operation's canonical word in the bits its row does not ignore. -/
theorem ignoredBitsChangeNothing : Obligations.IgnoredBitsChangeNothing := by
  intro w w' st i h agree
  obtain ⟨wf, avail⟩ := decode_allowed h
  exact decode_of_significant wf avail (agree.trans (encode_of_decode h).symm)

/-! ### The opcode table -/

/-- The bits the patterns of R75 read: 11 to 8 and, for the control writes, 6. -/
def patternBits : OpWord := 0xF40#12

/-- The mnemonics of the rows of R75 that match a word in a state. -/
def matchingRows (w : OpWord) (st : UsartState) : List String :=
  (opcodeTable.filter (fun r => r.matchesWord w st)).map OpcodeRow.mnemonic

/-- The mnemonic of what the decoder answers, if it is an operation. -/
def decodedRow (d : Decoded Instr) : List String :=
  match d with
  | .op i => [i.mnemonic]
  | .refused _ => []

theorem matchingRows_patternBits (w : OpWord) (st : UsartState) :
    matchingRows (w &&& patternBits) st = matchingRows w st := by
  have masks : ∀ r ∈ opcodeTable, patternBits &&& r.mask = r.mask := by decide
  unfold matchingRows
  congr 1
  refine List.filter_congr fun r hr => ?_
  rw [OpcodeRow.matchesWord, OpcodeRow.matchesWord, BitVec.and_assoc, masks r hr]

theorem decodedRow_controlWrite {st : UsartState} {v v' : Byte} (ir : v.getLsbD 6 = v'.getLsbD 6) :
    decodedRow (.op (controlWriteInstr st v)) = decodedRow (.op (controlWriteInstr st v')) := by
  rw [controlWriteInstr_eq, controlWriteInstr_eq, ir]
  split_ifs <;> rfl

/-- Which row an operation is in depends on the pattern's bits alone. -/
theorem decodedRow_patternBits (w : OpWord) (st : UsartState) :
    decodedRow (decode (w &&& patternBits) st) = decodedRow (decode w st) := by
  have high : (w &&& patternBits).toNat / 256 = w.toNat / 256 := (high_of_and rfl (by decide)).symm
  by_cases reserved : 11 ≤ w.toNat / 256
  · rw [decode_reserved reserved, decode_reserved (high ▸ reserved)]
    rfl
  · obtain ⟨i, hi, row⟩ := decode_of_not_reserved (Nat.lt_of_not_le reserved) st
    rw [hi]
    cases row with
    | rdOther h => rw [decode_rdOther (by omega)]
    | wrOther h => rw [decode_wrOther (by omega)]; rfl
    | rdData h => rw [decode_rdData (high.trans h)]
    | rdStatus h => rw [decode_rdStatus (high.trans h)]
    | wrData h => rw [decode_wrData (high.trans h)]; rfl
    | wrControl h =>
      rw [decode_wrControl (high.trans h)]
      refine decodedRow_controlWrite ?_
      simp [fieldD, patternBits]
    | rxPush h => rw [decode_rxPush (high.trans h)]; rfl
    | txPop h => rw [decode_txPop (high.trans h)]
    | connSet h => rw [decode_connSet (high.trans h)]; rfl

/-- A word of the pattern's bits: the number in bits 11 to 8, and bit 6. -/
def patternWord (n : Fin 16) (b : Bool) : OpWord :=
  withOperand (BitVec.ofNat 12 (2 ^ 8 * n) &&& patternBits) (if b then 0x40#8 else 0x00#8)

theorem and_patternBits (w : OpWord) : ∃ n b, w &&& patternBits = patternWord n b := by
  refine ⟨⟨w.toNat / 256, by omega⟩, (fieldD w).getLsbD 6, ?_⟩
  have six : fieldD w &&& fieldD patternBits = if (fieldD w).getLsbD 6 then 0x40#8 else 0x00#8 :=
    BitVec.and_twoPow (fieldD w) 6
  rw [patternWord, ← six, ← withOperand_and]
  exact congrArg (· &&& patternBits) (eq_withOperand rfl)

theorem patternWord_row (n : Fin 16) (b : Bool) (st : UsartState) :
    matchingRows (patternWord n b) st = decodedRow (decode (patternWord n b) st) := by
  cases st <;> revert n b <;> decide

/-- Settles O5: both sides depend on the pattern's bits alone, and the 32 words made of those bits are checked in each of
the four states. -/
theorem exactlyOneTableRowMatches : Obligations.ExactlyOneTableRowMatches := by
  intro w st
  obtain ⟨n, b, hw⟩ := and_patternBits w
  have row : matchingRows w st = decodedRow (decode w st) := by
    rw [← matchingRows_patternBits, ← decodedRow_patternBits, hw, patternWord_row]
  rw [matchingRows] at row
  rw [row]
  cases decode w st <;> rfl

/-- Settles O6: the thirteen words are closed, and the decoder runs on each. -/
theorem writtenOutWordsDecode : Obligations.WrittenOutWordsDecode := by
  unfold Obligations.WrittenOutWordsDecode
  decide

end Sys2Proof.Machine
end

section
/-! SUPPORT. Which input runs which operation, forwards: every word but a reserved call has a next state in every state
(R207, R208), a cycle runs as its word (R100), and the statements on the step that follow. -/

namespace Sys2Proof.Machine

/-! ### A word's operation runs -/

/-- A word that belongs to the background context has bit 11 set (R80). -/
theorem wordAgent_background {w : OpWord} (h : fieldA w = true) : wordAgent w = .background := if_pos h

/-- A background call, or a host cycle that completes, runs what the decoder gives (R77, R102). -/
theorem runWord_decoded {w : OpWord} {o : CycleOutcome} (runs : fieldA w = true ∨ o = .completed) (s : State) :
    runWord w o s = runDecoded (decode w s.usartState) s := by
  unfold runWord
  cases bit : fieldA w with
  | true => rw [wordAgent_background bit]
  | false =>
    have completed : o = .completed := runs.resolve_left (by rw [bit]; decide)
    rw [wordAgent_host bit, completed]

theorem runWord_of_decode {w : OpWord} {o : CycleOutcome} {s : State} {i : Instr}
    (runs : fieldA w = true ∨ o = .completed) (h : decode w s.usartState = .op i) : runWord w o s = exec i s := by
  rw [runWord_decoded runs, h]
  rfl

/-- Settles O7: the step takes the input off, and the word runs its operation; an empty list is the idle case. -/
theorem stepRunsDecodedOperation : Obligations.StepRunsDecodedOperation := by
  refine ⟨fun s w o rest i pending runs h => ?input, fun s idle => ?idle⟩
  case input => exact (step_of_pending pending).trans (runWord_of_decode (s := s.withPending rest) runs h)
  case idle => unfold step runNext; rw [idle]

/-! ### A cycle by its address -/

/-- A read cycle's word holds no byte (R70, R100). -/
theorem cycleWord_read (c : PortClass) (bus : Byte) : cycleWord c .read bus = classBits c := by
  cases c <;> rfl

/-- A bus cycle's word is in format H (R70). -/
theorem fieldA_cycleWord (c : PortClass) (dir : Direction) (bus : Byte) : fieldA (cycleWord c dir bus) = false := by
  cases dir with
  | read => rw [cycleWord_read]; cases c <;> rfl
  | write => cases c <;> exact Laws.AgentBit.withOperand_bit11 _ bus

theorem portClass_data : portClass Config.dataPortAddr = .data := if_pos rfl

/-- The block answers two different ports (R50). -/
theorem controlPortAddr_ne_dataPortAddr : Config.controlPortAddr ≠ Config.dataPortAddr := by
  unfold Config.controlPortAddr
  split <;> omega

theorem portClass_control : portClass Config.controlPortAddr = .control := by
  rw [portClass, if_neg controlPortAddr_ne_dataPortAddr, if_pos rfl]

theorem portClass_other {addr : Nat} (data : addr ≠ Config.dataPortAddr) (control : addr ≠ Config.controlPortAddr) :
    portClass addr = .other := by
  rw [portClass, if_neg data, if_neg control]

theorem decode_readCycle (c : PortClass) (bus : Byte) (st : UsartState) :
    decode (cycleWord c .read bus) st =
      .op (match c with | .data => .rdData | .control => .rdStatus | .other => .rdOther) := by
  rw [cycleWord_read]
  cases c with
  | data => exact decodeOfEncodeIsIdentity .rdData st rfl rfl
  | control => exact decodeOfEncodeIsIdentity .rdStatus st rfl rfl
  | other => exact decodeOfEncodeIsIdentity .rdOther st rfl rfl

/-- A write cycle's word is the canonical word of the port's write (R70, R100). -/
theorem decode_writeCycle (c : PortClass) (bus : Byte) (st : UsartState) :
    decode (cycleWord c .write bus) st =
      .op (match c with | .data => .wrData bus | .control => controlWriteInstr st bus | .other => .wrOther bus) := by
  cases c with
  | data => exact decodeOfEncodeIsIdentity (.wrData bus) st rfl rfl
  | control =>
    obtain ⟨wf, avail⟩ := controlWriteInstr_allowed st bus
    rw [show cycleWord .control .write bus = encode (controlWriteInstr st bus) from
      (encode_controlWriteInstr st bus).symm]
    exact decodeOfEncodeIsIdentity _ st wf avail
  | other => exact decodeOfEncodeIsIdentity (.wrOther bus) st rfl rfl

/-- Settles O8: a cycle input runs its word, the two addresses differ, and the word decodes to the port's operation. -/
theorem cycleAtAddressRunsAsItsWord : Obligations.CycleAtAddressRunsAsItsWord :=
  ⟨fun _ _ _ _ _ _ pending => step_of_pending pending, portClass_data, portClass_control,
    fun _ data control => portClass_other data control,
    fun c bus st => ⟨decode_readCycle c bus st, decode_writeCycle c bus st⟩⟩

/-! ### Modem mode and power-on -/

/-- Settles O10: each input's step is its update on the state with the input taken off. -/
theorem modemModeAndPowerOnInputs : Obligations.ModemModeAndPowerOnInputs :=
  ⟨fun _ _ _ pending => step_of_pending pending, fun _ _ pending => step_of_pending pending⟩

/-- Settles O13: the state right after power-on, written out. -/
theorem powerOnState : Obligations.PowerOnState := rfl

/-! ### What stops a step -/

/-- An operation run under its row's condition (R75) completes: no condition is fatal (R207, R208). -/
theorem exec_total {i : Instr} {s : State} (wf : i.wellFormed = true) (avail : i.availableIn s.usartState = true) :
    ∃ t, exec i s = .next t := by
  cases i with
  | rdData =>
    by_cases op : s.usartState = .operational
    · cases q : s.rxq with
      | nil => exact ⟨_, exec_rdData_empty op q⟩
      | cons b rest => exact ⟨_, exec_rdData_head op q⟩
    · exact ⟨_, exec_rdData_notOperational op⟩
  | rdStatus => exact ⟨_, rfl⟩
  | wrData d =>
    by_cases op : s.usartState = .operational
    · cases txen : s.cmd.getLsbD 0 with
      | false => exact ⟨_, exec_wrData_txDisabled d op txen⟩
      | true =>
        by_cases full : s.txq.length = s.params.txCap
        · exact ⟨_, exec_wrData_full d op txen full⟩
        · exact ⟨_, exec_wrData_room d op txen full⟩
    · exact ⟨_, exec_wrData_notOperational d op⟩
  | wrMode v => exact ⟨_, exec_wrMode_reset (availableIn_wrMode.1 avail) v⟩
  | wrCmd v => exact ⟨_, exec_wrCmd_command (availableIn_wrCmd.1 avail) (wellFormed_wrCmd.1 wf)⟩
  | wrIr v => exact ⟨_, exec_wrIr_internalReset (availableIn_wrIr.1 avail) wf⟩
  | rdOther => exact ⟨_, rfl⟩
  | wrOther d => exact ⟨_, rfl⟩
  | rxPush b =>
    by_cases full : s.rxq.length = s.params.rxCap
    · exact ⟨_, exec_rxPush_full b full⟩
    · exact ⟨_, exec_rxPush_room b full⟩
  | txPop =>
    cases q : s.txq with
    | nil => exact ⟨_, exec_txPop_empty q⟩
    | cons b rest => exact ⟨_, exec_txPop_head q⟩
  | connSet c => exact ⟨_, rfl⟩

/-- A word that is no reserved call has a next state, whatever its cycle's outcome. -/
theorem runWord_total {w : OpWord} (h : w.toNat / 256 < 11) (o : CycleOutcome) (s : State) :
    ∃ t, runWord w o s = .next t := by
  obtain ⟨i, hi, -⟩ := decode_of_not_reserved h s.usartState
  obtain ⟨wf, avail⟩ := decode_allowed hi
  by_cases runs : fieldA w = true ∨ o = .completed
  · rw [runWord_of_decode runs hi]
    exact exec_total wf avail
  · obtain ⟨host, abandoned⟩ := not_or.1 runs
    cases o with
    | completed => exact absurd rfl abandoned
    | abandoned => exact ⟨_, runWord_abandoned (Bool.eq_false_iff.2 host) s⟩

/-- A host word is below 8 in bits 11 to 8 (R80). -/
theorem high_of_host {w : OpWord} (host : fieldA w = false) : w.toNat / 256 < 8 := by
  rw [fieldA_eq, Nat.testBit_eq_decide_div_mod_eq, decide_eq_false_iff_not] at host
  have width : w.toNat / 256 < 16 := by omega
  omega

/-- A word from 11 up in bits 11 to 8 is a background call (R78, R80). -/
theorem background_of_reserved {w : OpWord} (h : 11 ≤ w.toNat / 256) : fieldA w = true := by
  by_contra host
  have := high_of_host (Bool.eq_false_iff.2 host)
  omega

theorem runWord_reserved {w : OpWord} (h : 11 ≤ w.toNat / 256) (o : CycleOutcome) (s : State) :
    runWord w o s = .refused (.reservedCall (BitVec.ofNat 3 (w.toNat / 256))) := by
  rw [runWord_decoded (.inl (background_of_reserved h)), decode_reserved h, ← fieldOP_eq]
  rfl

/-- Every input but a reserved call has a next state. -/
theorem runInput_total {e : Input} (h : ∀ w o, e = .op w o → w.toNat / 256 < 11) (s : State) :
    ∃ t, runInput e s = .next t := by
  cases e with
  | op w o => exact runWord_total (h w o rfl) o s
  | cycle addr dir bus o =>
    have host := high_of_host (fieldA_cycleWord (portClass addr) dir bus)
    exact runWord_total (by omega) o s
  | modemMode m => exact ⟨_, rfl⟩
  | powerOn => exact ⟨_, rfl⟩

/-- Settles O12: issuing an input runs it. -/
theorem everyOtherInputHasNextState : Obligations.EveryOtherInputHasNextState :=
  fun s _ h => runInput_total h s

/-- An input that is refused is a reserved call, named by its OP field (R78). -/
theorem reserved_of_runInput_refused {e : Input} {s : State} {r : Refusal} (h : runInput e s = .refused r) :
    ∃ w o, e = .op w o ∧ 11 ≤ w.toNat / 256 ∧ r = .reservedCall (BitVec.ofNat 3 (w.toNat / 256)) := by
  by_cases reserved : ∃ w o, e = .op w o ∧ 11 ≤ w.toNat / 256
  · obtain ⟨w, o, rfl, high⟩ := reserved
    refine ⟨w, o, rfl, high, ?_⟩
    cases h.symm.trans (runWord_reserved high o s)
    rfl
  · have low (w : OpWord) (o : CycleOutcome) (he : e = .op w o) : w.toNat / 256 < 11 :=
      Nat.lt_of_not_le fun high => reserved ⟨w, o, he, high⟩
    obtain ⟨t, ht⟩ := runInput_total low s
    cases h.symm.trans ht

/-- Settles O11: with no input a step idles, and with one it is refused just where the input is. -/
theorem stepRefusesReservedCallsOnly : Obligations.StepRefusesReservedCallsOnly := by
  intro s r
  constructor
  · intro h
    cases pending : s.pending with
    | nil => cases h.symm.trans (stepRunsDecodedOperation.2 s pending)
    | cons e rest =>
      rw [step_of_pending pending] at h
      obtain ⟨w, o, rfl, high, hr⟩ := reserved_of_runInput_refused h
      exact ⟨w, o, rest, rfl, high, hr⟩
  · rintro ⟨w, o, rest, pending, high, rfl⟩
    rw [step_of_pending pending]
    exact runWord_reserved high o _

/-! ### Issuing the assembler's lines (R81) -/

/-- A canonical word whose cycle completes runs its operation. -/
theorem issue_encode {i : Instr} {s : State} (wf : i.wellFormed = true) (avail : i.availableIn s.usartState = true) :
    issue (.op (encode i) .completed) s = exec i s :=
  runWord_of_decode (.inr rfl) (decodeOfEncodeIsIdentity i s.usartState wf avail)

theorem issue_inD (s : State) : issue AsmLine.inD.input s = exec .rdData s := issue_encode (i := .rdData) rfl rfl

theorem issue_inC (s : State) : issue AsmLine.inC.input s = exec .rdStatus s := issue_encode (i := .rdStatus) rfl rfl

theorem issue_outD (d : Byte) (s : State) : issue (AsmLine.outD d).input s = exec (.wrData d) s :=
  issue_encode (i := .wrData d) rfl rfl

theorem issue_bgRxPush (b : Byte) (s : State) : issue (AsmLine.bgRxPush b).input s = exec (.rxPush b) s :=
  issue_encode (i := .rxPush b) rfl rfl

theorem issue_bgTxPop (s : State) : issue AsmLine.bgTxPop.input s = exec .txPop s := issue_encode (i := .txPop) rfl rfl

/-- The control write runs as the operation it is in the current `STATE` (R73). -/
theorem issue_outC (v : Byte) (s : State) :
    issue (AsmLine.outC v).input s = exec (controlWriteInstr s.usartState v) s := by
  obtain ⟨wf, avail⟩ := controlWriteInstr_allowed s.usartState v
  rw [← issue_encode wf avail, encode_controlWriteInstr]
  rfl

theorem issue_outC_mode {s : State} (hs : s.usartState = .reset) (v : Byte) :
    issue (AsmLine.outC v).input s =
      .next (((s.withMode v).withUsartState .modeInstruction).withReturned .nothing) := by
  rw [issue_outC, controlWriteInstr_mode hs, exec_wrMode_reset hs]

theorem issue_outC_command {s : State} {v : Byte} (hs : s.usartState ≠ .reset) (ir : v.getLsbD 6 = false) :
    issue (AsmLine.outC v).input s =
      .next ((s.storeCommand v (afterCommand s.usartState)).withReturned .nothing) := by
  rw [issue_outC, controlWriteInstr_command hs ir, exec_wrCmd_command hs ir]

theorem issue_outC_internalReset {s : State} {v : Byte} (hs : s.usartState ≠ .reset) (ir : v.getLsbD 6 = true) :
    issue (AsmLine.outC v).input s = .next (s.internalReset.withReturned .nothing) := by
  rw [issue_outC, controlWriteInstr_internalReset hs ir, exec_wrIr_internalReset hs ir]

/-- Settles O25: the three control writes in turn; outside Reset the table is read off state by state. -/
theorem controlWriteTransitions : Obligations.ControlWriteTransitions := by
  intro s v
  by_cases hs : s.usartState = .reset
  · refine ⟨_, issue_outC_mode hs v, ?_⟩
    rw [hs]
    rfl
  · cases ir : v.getLsbD 6 with
    | true =>
      refine ⟨_, issue_outC_internalReset hs ir, ?_⟩
      cases state : s.usartState with
      | reset => exact absurd state hs
      | _ => rfl
    | false =>
      refine ⟨_, issue_outC_command hs ir, ?_⟩
      cases state : s.usartState with
      | reset => exact absurd state hs
      | _ => rfl

/-! ### A control write outside its row's condition, and CONN_SET -/

theorem exec_wrMode_refused {s : State} (hs : s.usartState ≠ .reset) (v : Byte) :
    exec (.wrMode v) s = .refused .notThisControlWrite := by
  change execWrMode v s = _
  unfold execWrMode
  cases ir : v.getLsbD 6 with
  | true => rw [controlWrite_internalReset hs ir]
  | false => rw [controlWrite_command hs ir]

theorem exec_wrCmd_refused {s : State} {v : Byte} (outside : s.usartState = .reset ∨ v.getLsbD 6 = true) :
    exec (.wrCmd v) s = .refused .notThisControlWrite := by
  change execWrCmd v s = _
  unfold execWrCmd
  by_cases hs : s.usartState = .reset
  · rw [controlWrite_reset hs]
  · rw [controlWrite_internalReset hs (outside.resolve_left hs)]

theorem exec_wrIr_refused {s : State} {v : Byte} (outside : s.usartState = .reset ∨ v.getLsbD 6 = false) :
    exec (.wrIr v) s = .refused .notThisControlWrite := by
  change execWrIr v s = _
  unfold execWrIr
  by_cases hs : s.usartState = .reset
  · rw [controlWrite_reset hs]
  · rw [controlWrite_command hs (outside.resolve_left hs)]

/-- Settles O24: in each of these states the byte is one of the other two control writes. -/
theorem controlWriteOutsideItsRowRefused : Obligations.ControlWriteOutsideItsRowRefused :=
  fun _ v => ⟨fun hs => exec_wrMode_refused hs v, exec_wrCmd_refused, exec_wrIr_refused⟩

/-- Settles O23: the one status bit written is DSR. -/
theorem connSetResult : Obligations.ConnSetResult :=
  fun s c => ⟨_, rfl, getLsbD_setDsr s.status c, rfl⟩

end Sys2Proof.Machine
end

section
/-! SUPPORT. The invariant of the block: what each shared operation needs to keep it, that every input keeps it, and the
statements on reachable states (R37, R41) that follow. -/

namespace Sys2Proof.Machine

/-! ### What the invariant speaks of -/

/-- The two states agree in everything the invariant speaks of: they may differ in `MODE`, `TRACE`, MM, the inputs to
come, the value returned and the count of draws. -/
structure SameBank (s t : State) : Prop where
  usartState : t.usartState = s.usartState
  cmd : t.cmd = s.cmd
  status : t.status = s.status
  rxq : t.rxq = s.rxq
  txq : t.txq = s.txq
  conn : t.conn = s.conn
  params : t.params = s.params

theorem ImageHolds.of_sameBank {s t : State} (image : ImageHolds s) (same : SameBank s t) : ImageHolds t where
  txrdy := by rw [same.status, same.cmd, same.txq, same.params]; exact image.txrdy
  rxrdy := by rw [same.status, same.rxq]; exact image.rxrdy
  txe := by rw [same.status, same.cmd, same.txq]; exact image.txe
  dsr := by rw [same.status, same.conn]; exact image.dsr

theorem InResetWindow.of_sameBank {s t : State} (window : InResetWindow s) (same : SameBank s t) :
    InResetWindow t where
  usartState := same.usartState.trans window.usartState
  cmd := same.cmd.trans window.cmd
  rxq := same.rxq.trans window.rxq
  txq := same.txq.trans window.txq
  txrdy := by rw [same.status]; exact window.txrdy
  rxrdy := by rw [same.status]; exact window.rxrdy
  txe := by rw [same.status]; exact window.txe
  dsr := by rw [same.status, same.conn]; exact window.dsr

theorem BankInv.of_sameBank {s t : State} (inv : BankInv s) (same : SameBank s t) : BankInv t where
  params := by rw [same.params]; exact inv.params
  rxCapacity := by rw [same.rxq, same.params]; exact inv.rxCapacity
  txCapacity := by rw [same.txq, same.params]; exact inv.txCapacity
  cmdIr := by rw [same.cmd]; exact inv.cmdIr
  txqOperational := by rw [same.usartState, same.txq]; exact inv.txqOperational
  status := inv.status.imp (·.of_sameBank same) (·.of_sameBank same)
  errorBits := by rw [same.status]; exact inv.errorBits
  overrun := by rw [same.params, same.status]; exact inv.overrun

/-- Outside ModeInstruction the internal-reset window is closed (R41). -/
theorem BankInv.image {s : State} (inv : BankInv s) (hs : s.usartState ≠ .modeInstruction) : ImageHolds s :=
  inv.status.resolve_right fun window => hs window.usartState

/-- An operation that ends in a recompute, and sets no bit of 3 to 6 that was 0, keeps the invariant. -/
theorem BankInv.of_recompute {i : Instr} {s t : State} (inv : BankInv s) (h : exec i s = .next t)
    (cmdIr : t.cmd.getLsbD 6 = false) (txq : t.usartState ≠ .operational → t.txq = []) (image : ImageHolds t)
    (upper : ∀ k, 3 ≤ k → k ≤ 6 → s.status.getLsbD k = false → t.status.getLsbD k = false) : BankInv t := by
  have params : t.params = s.params := exec_params h
  obtain ⟨rxFits, txFits⟩ := exec_queuesFit h ⟨inv.rxCapacity, inv.txCapacity⟩
  obtain ⟨pe, fe, syndet⟩ := inv.errorBits
  exact {
    params := by rw [params]; exact inv.params
    rxCapacity := rxFits
    txCapacity := txFits
    cmdIr := cmdIr
    txqOperational := txq
    status := .inl image
    errorBits := ⟨upper 3 (by decide) (by decide) pe, upper 5 (by decide) (by decide) fe,
      upper 6 (by decide) (by decide) syndet⟩
    overrun := fun off => upper 4 (by decide) (by decide) (inv.overrun (params ▸ off)) }

/-- A queue mutation, whose recompute keeps bits 3 to 6 (R33, R34), keeps the invariant. -/
theorem BankInv.of_queue_mutation {i : Instr} {s t : State} (inv : BankInv s) (h : exec i s = .next t)
    (cmd : t.cmd = s.cmd) (txq : t.usartState ≠ .operational → t.txq = []) (status : RecomputedFrom s.status t) :
    BankInv t :=
  inv.of_recompute h (by rw [cmd]; exact inv.cmdIr) txq status.1
    fun k low high clear => (status.2 k low high).trans clear

/-! ### Every operation keeps it -/

theorem bankInv_rdData {s t : State} (inv : BankInv s) (h : exec .rdData s = .next t) : BankInv t := by
  obtain ⟨-, rfl⟩ | ⟨-, -, rfl⟩ | ⟨b, rest, op, -, rfl⟩ := execRdData_next h
  · exact inv.of_sameBank ⟨rfl, rfl, rfl, rfl, rfl, rfl, rfl⟩
  · exact inv.of_sameBank ⟨rfl, rfl, rfl, rfl, rfl, rfl, rfl⟩
  · exact inv.of_queue_mutation h rfl (fun nop => absurd op nop) ((dropRx_spec s rest).1.withReturned _)

theorem bankInv_wrData {s t : State} {d : Byte} (inv : BankInv s) (h : exec (.wrData d) s = .next t) :
    BankInv t := by
  obtain ⟨-, rfl⟩ | ⟨-, -, rfl⟩ | ⟨-, -, -, rfl⟩ | ⟨op, -, -, rfl⟩ := execWrData_next h
  · exact inv.of_sameBank ⟨rfl, rfl, rfl, rfl, rfl, rfl, rfl⟩
  · exact inv.of_sameBank ⟨rfl, rfl, rfl, rfl, rfl, rfl, rfl⟩
  · exact inv.of_sameBank ⟨rfl, rfl, rfl, rfl, rfl, rfl, rfl⟩
  · exact inv.of_queue_mutation h rfl (fun nop => absurd op nop) (((pushTx_spec s d).1.handOff _ d).withReturned _)

/-- The mode write leaves Reset, where the window is closed, and touches no register the image speaks of (R142). -/
theorem bankInv_wrMode {s t : State} {v : Byte} (inv : BankInv s) (h : exec (.wrMode v) s = .next t) :
    BankInv t := by
  obtain ⟨pre, rfl⟩ := execWrMode_next h
  obtain ⟨txrdy, rxrdy, txe, dsr⟩ := inv.image (by rw [pre]; decide)
  exact {
    params := inv.params
    rxCapacity := inv.rxCapacity
    txCapacity := inv.txCapacity
    cmdIr := inv.cmdIr
    txqOperational := fun _ => inv.txqOperational (by rw [pre]; decide)
    status := .inl ⟨txrdy, rxrdy, txe, dsr⟩
    errorBits := inv.errorBits
    overrun := inv.overrun }

/-- A command write that does not lead to Operational was not given there, so TXQ was empty. -/
theorem bankInv_wrCmd {s t : State} {v : Byte} (inv : BankInv s) (h : exec (.wrCmd v) s = .next t) : BankInv t := by
  obtain ⟨-, ir, rfl⟩ := execWrCmd_next h
  obtain ⟨image, upper, -⟩ := storeCommand_spec s v (afterCommand s.usartState)
  refine inv.of_recompute h ir (fun nop => inv.txqOperational fun op => nop ?_) (image.withReturned _)
    fun k low high clear => (upper k low high).trans (by simp [clear])
  exact congrArg afterCommand op

/-- An internal reset opens the window: 0x05 has TXRDY and TXE set, RXRDY and DSR clear (R146, R41). -/
theorem bankInv_wrIr {s t : State} {v : Byte} (inv : BankInv s) (h : exec (.wrIr v) s = .next t) : BankInv t := by
  obtain ⟨-, -, rfl⟩ := execWrIr_next h
  have status : s.params.irStatus = 0x05#8 := inv.params.irStatus
  have bit (k : Nat) : (s.internalReset.withReturned .nothing).status.getLsbD k = (0x05#8).getLsbD k :=
    congrArg (·.getLsbD k) status
  exact {
    params := inv.params
    rxCapacity := Nat.zero_le _
    txCapacity := Nat.zero_le _
    cmdIr := (by decide : (0x00#8).getLsbD 6 = false)
    txqOperational := fun _ => rfl
    status := .inr ⟨rfl, rfl, rfl, rfl, bit 0, bit 1, bit 2, .inl (bit 7)⟩
    errorBits := ⟨bit 3, bit 5, bit 6⟩
    overrun := fun _ => bit 4 }

/-- An RX overflow moves OE alone, and only under the parameter; a full RXQ is not empty, so the window is closed
(R161). -/
theorem bankInv_overflowRx {s : State} (inv : BankInv s) (b : Byte) (full : s.rxq.length = s.params.rxCap) :
    BankInv (s.overflowRx b) := by
  obtain ⟨bit, frame⟩ := overflowRx_spec s b
  have other {k : Nat} (hk : k ≠ 4) : (s.overflowRx b).status.getLsbD k = s.status.getLsbD k := by
    rw [bit, decide_eq_false hk, Bool.and_false, Bool.or_false]
  have closed : ¬ InResetWindow s := fun window => by
    have room : 0 < s.params.rxCap := inv.params.capacities.1
    rw [window.rxq, List.length_nil] at full
    omega
  obtain ⟨txrdy, rxrdy, txe, dsr⟩ := inv.status.resolve_right closed
  obtain ⟨pe, fe, syndet⟩ := inv.errorBits
  rw [frame]
  exact {
    params := inv.params
    rxCapacity := inv.rxCapacity
    txCapacity := inv.txCapacity
    cmdIr := inv.cmdIr
    txqOperational := inv.txqOperational
    status := .inl ⟨(other (by decide)).trans txrdy, (other (by decide)).trans rxrdy, (other (by decide)).trans txe,
      (other (by decide)).trans dsr⟩
    errorBits := ⟨(other (by decide)).trans pe, (other (by decide)).trans fe, (other (by decide)).trans syndet⟩
    overrun := fun off => (bit 4).trans (by rw [inv.overrun off, show s.params.overrunSetsOE = false from off]; rfl) }

theorem bankInv_rxPush {s t : State} {b : Byte} (inv : BankInv s) (h : exec (.rxPush b) s = .next t) :
    BankInv t := by
  obtain ⟨full, rfl⟩ | ⟨-, rfl⟩ := execRxPush_next h
  · exact (bankInv_overflowRx inv b full).of_sameBank ⟨rfl, rfl, rfl, rfl, rfl, rfl, rfl⟩
  · exact inv.of_queue_mutation h rfl inv.txqOperational ((pushRx_spec s b).1.withReturned _)

/-- A TXQ that holds a byte is that of Operational (R144 corner case (c)). -/
theorem bankInv_txPop {s t : State} (inv : BankInv s) (h : exec .txPop s = .next t) : BankInv t := by
  obtain ⟨-, rfl⟩ | ⟨d, rest, hq, rfl⟩ := execTxPop_next h
  · exact inv.of_sameBank ⟨rfl, rfl, rfl, rfl, rfl, rfl, rfl⟩
  · refine inv.of_queue_mutation h rfl (fun nop => ?_) ((dropTx_spec s rest).1.withReturned _)
    cases hq.symm.trans (inv.txqOperational nop)

/-- CONN_SET writes `CONN` and DSR together, inside the window too (R162, R41). -/
theorem bankInv_connSet {s t : State} {c : Bool} (inv : BankInv s) (h : exec (.connSet c) s = .next t) :
    BankInv t := by
  have bit (k : Nat) : t.status.getLsbD k = if k = 7 then c else s.status.getLsbD k := status_of_connSet h k
  obtain ⟨pe, fe, syndet⟩ := inv.errorBits
  cases h
  exact {
    params := inv.params
    rxCapacity := inv.rxCapacity
    txCapacity := inv.txCapacity
    cmdIr := inv.cmdIr
    txqOperational := inv.txqOperational
    status := inv.status.imp
      (fun image => ⟨(bit 0).trans image.txrdy, (bit 1).trans image.rxrdy, (bit 2).trans image.txe, bit 7⟩)
      (fun window => ⟨window.usartState, window.cmd, window.rxq, window.txq, (bit 0).trans window.txrdy,
        (bit 1).trans window.rxrdy, (bit 2).trans window.txe, .inr (bit 7)⟩)
    errorBits := ⟨(bit 3).trans pe, (bit 5).trans fe, (bit 6).trans syndet⟩
    overrun := fun off => (bit 4).trans (inv.overrun off) }

theorem exec_bankInv {i : Instr} {s t : State} (h : exec i s = .next t) (inv : BankInv s) : BankInv t := by
  cases i with
  | rdData => exact bankInv_rdData inv h
  | rdStatus => cases h; exact inv.of_sameBank ⟨rfl, rfl, rfl, rfl, rfl, rfl, rfl⟩
  | wrData d => exact bankInv_wrData inv h
  | wrMode v => exact bankInv_wrMode inv h
  | wrCmd v => exact bankInv_wrCmd inv h
  | wrIr v => exact bankInv_wrIr inv h
  | rdOther => cases h; exact inv.of_sameBank ⟨rfl, rfl, rfl, rfl, rfl, rfl, rfl⟩
  | wrOther d => cases h; exact inv.of_sameBank ⟨rfl, rfl, rfl, rfl, rfl, rfl, rfl⟩
  | rxPush b => exact bankInv_rxPush inv h
  | txPop => exact bankInv_txPop inv h
  | connSet c => exact bankInv_connSet inv h

/-! ### Every input keeps it, from power-on -/

/-- An abandoned cycle touches nothing the invariant speaks of (R104). -/
theorem sameBank_abandon (s : State) (w : OpWord) : SameBank s (s.abandon w) := by
  rw [abandon_spec]
  exact ⟨rfl, rfl, rfl, rfl, rfl, rfl, rfl⟩

theorem powerOn_bankInv {p : Config.Params} (spec : ParamsAsSpec p) : BankInv (State.powerOn p) := by
  have bit (k : Nat) : (State.powerOn p).status.getLsbD k = (0x00#8).getLsbD k :=
    congrArg (·.getLsbD k) spec.powerOnStatus
  have flags : ImageHolds (State.powerOn p) := by
    refine ⟨(bit 0).trans ?_, bit 1, (bit 2).trans ?_, bit 7⟩ <;> simp [State.powerOn]
  exact {
    params := spec
    rxCapacity := Nat.zero_le _
    txCapacity := Nat.zero_le _
    cmdIr := (by decide : (0x00#8).getLsbD 6 = false)
    txqOperational := fun _ => rfl
    status := .inl flags
    errorBits := ⟨bit 3, bit 5, bit 6⟩
    overrun := fun _ => bit 4 }

/-- Settles O32: the defaults of R7 are the parameters the invariant asks for. -/
theorem powerOnMeetsInvariant : Obligations.PowerOnMeetsInvariant :=
  powerOn_bankInv ⟨rfl, rfl, by decide⟩

theorem runInput_bankInv {e : Input} {s t : State} (h : runInput e s = .next t) (inv : BankInv s) : BankInv t := by
  obtain ⟨w, rfl⟩ | ⟨_, i, -, hx⟩ | ⟨m, -, rfl⟩ | ⟨-, rfl⟩ := runInput_next h
  · exact inv.of_sameBank (sameBank_abandon s w)
  · exact exec_bankInv hx inv
  · exact inv.of_sameBank ⟨rfl, rfl, rfl, rfl, rfl, rfl, rfl⟩
  · exact (powerOn_bankInv inv.params).of_sameBank ⟨rfl, rfl, rfl, rfl, rfl, rfl, rfl⟩

/-- Settles O33: a step idles or runs an input, and taking the input off the list touches nothing the invariant speaks
of. -/
theorem stepKeepsInvariant : Obligations.StepKeepsInvariant := by
  intro s t inv h
  obtain ⟨-, rfl⟩ | ⟨e, rest, -, hx⟩ := step_next h
  · exact inv
  · exact runInput_bankInv hx (inv.of_sameBank ⟨rfl, rfl, rfl, rfl, rfl, rfl, rfl⟩)

/-- No input writes the parameters. -/
theorem runInput_params {e : Input} {s t : State} (h : runInput e s = .next t) : t.params = s.params := by
  obtain ⟨w, rfl⟩ | ⟨_, i, -, hx⟩ | ⟨m, -, rfl⟩ | ⟨-, rfl⟩ := runInput_next h
  · exact (sameBank_abandon s w).params
  · exact exec_params hx
  · rfl
  · rfl

/-- Settles O50: a step idles or runs an input, which keeps the parameters and the capacities. -/
theorem stepKeepsQueueCapacities : Obligations.StepKeepsQueueCapacities := by
  intro s t rx tx h
  obtain ⟨-, rfl⟩ | ⟨e, rest, -, hx⟩ := step_next h
  · exact ⟨rfl, rx, tx⟩
  · exact ⟨runInput_params (s := s.withPending rest) hx, runInput_queuesFit hx ⟨rx, tx⟩⟩

/-- Settles O35: power-on meets the invariant and every input keeps it; in Operational the window is closed. -/
theorem reachableStatusIsConsistent : Obligations.ReachableStatusIsConsistent := by
  intro es p t spec h
  have inv : BankInv t :=
    issueAll_keeps (P := BankInv) (Q := fun _ => True) (fun e s t _ inv h => runInput_bankInv h inv)
      es (State.powerOn p) t (fun _ _ => trivial) (powerOn_bankInv spec) h
  exact ⟨inv.status, fun op => inv.image (by rw [op]; decide)⟩

end Sys2Proof.Machine
end

section
/-! SUPPORT. What each operation may write (R45), what no operation reads (R22, R24, R40), and the statements that follow:
the write map, and how OE, `STATE` and `CONN` move over runs (R31, R38, R148). -/

namespace Sys2Proof.Machine

/-! ### What each operation may write -/

/-- The write map of R45 turned round: the next state is the old one but for the pieces in the operation's rows. -/
def WritesOnly (i : Instr) (s t : State) : Prop :=
  match i with
  | .rdData => ∃ q b l r, t = { s with rxq := q, status := b, trace := l, returned := r }
  | .rdStatus => ∃ r, t = { s with returned := r }
  | .wrData _ => ∃ q b l r, t = { s with txq := q, status := b, trace := l, returned := r }
  | .wrMode _ => ∃ u b r, t = { s with usartState := u, mode := b, returned := r }
  | .wrCmd _ => ∃ u c b r, t = { s with usartState := u, cmd := c, status := b, returned := r }
  | .wrIr _ => ∃ u c b q q' r,
      t = { s with usartState := u, cmd := c, status := b, rxq := q, txq := q', returned := r }
  | .rdOther => ∃ l r, t = { s with trace := l, returned := r }
  | .wrOther _ => ∃ l r, t = { s with trace := l, returned := r }
  | .rxPush _ => ∃ q b l r, t = { s with rxq := q, status := b, trace := l, returned := r }
  | .txPop => ∃ q b r, t = { s with txq := q, status := b, returned := r }
  | .connSet _ => ∃ c b r, t = { s with conn := c, status := b, returned := r }

theorem exec_writesOnly {i : Instr} {s t : State} (h : exec i s = .next t) : WritesOnly i s t := by
  cases i with
  | rdData =>
    obtain ⟨-, rfl⟩ | ⟨-, -, rfl⟩ | ⟨_, _, -, -, rfl⟩ := execRdData_next h <;> exact ⟨_, _, _, _, rfl⟩
  | rdStatus => cases h; exact ⟨_, rfl⟩
  | wrData d =>
    obtain ⟨-, rfl⟩ | ⟨-, -, rfl⟩ | ⟨-, -, -, rfl⟩ | ⟨-, -, -, rfl⟩ := execWrData_next h <;> exact ⟨_, _, _, _, rfl⟩
  | wrMode v => obtain ⟨-, rfl⟩ := execWrMode_next h; exact ⟨_, _, _, rfl⟩
  | wrCmd v => obtain ⟨-, -, rfl⟩ := execWrCmd_next h; exact ⟨_, _, _, _, rfl⟩
  | wrIr v => obtain ⟨-, -, rfl⟩ := execWrIr_next h; exact ⟨_, _, _, _, _, _, rfl⟩
  | rdOther => cases h; exact ⟨_, _, rfl⟩
  | wrOther d => cases h; exact ⟨_, _, rfl⟩
  | rxPush b =>
    obtain ⟨-, rfl⟩ | ⟨-, rfl⟩ := execRxPush_next h
    · rw [(overflowRx_spec s b).2]; exact ⟨_, _, _, _, rfl⟩
    · exact ⟨_, _, _, _, rfl⟩
  | txPop => obtain ⟨-, rfl⟩ | ⟨_, _, -, rfl⟩ := execTxPop_next h <;> exact ⟨_, _, _, rfl⟩
  | connSet c => cases h; exact ⟨_, _, _, rfl⟩

/-- Settles O26: a piece of state outside an operation's rows of the map is untouched by it. -/
theorem onlyListedOperationsWriteEachRegister : Obligations.OnlyListedOperationsWriteEachRegister := by
  intro i s t h
  have frame := exec_writesOnly h
  cases i with
  | rdData => obtain ⟨_, _, _, _, rfl⟩ := frame; simp
  | rdStatus => obtain ⟨_, rfl⟩ := frame; simp
  | wrData d => obtain ⟨_, _, _, _, rfl⟩ := frame; simp
  | wrMode v => obtain ⟨_, _, _, rfl⟩ := frame; simp
  | wrCmd v => obtain ⟨_, _, _, _, rfl⟩ := frame; simp
  | wrIr v => obtain ⟨_, _, _, _, _, _, rfl⟩ := frame; simp
  | rdOther => obtain ⟨_, _, rfl⟩ := frame; simp
  | wrOther d => obtain ⟨_, _, rfl⟩ := frame; simp
  | rxPush b => obtain ⟨_, _, _, _, rfl⟩ := frame; simp
  | txPop => obtain ⟨_, _, _, rfl⟩ := frame; simp
  | connSet c => obtain ⟨_, _, _, rfl⟩ := frame; simp

/-! ### What no operation reads -/

/-- The state with `TRACE`, `MODE` and `CMD` passed through three functions. -/
def State.mapUnread (g : List TraceEvent → List TraceEvent) (m c : Byte → Byte) (s : State) : State :=
  { s with trace := g s.trace, mode := m s.mode, cmd := c s.cmd }

section

variable {g : List TraceEvent → List TraceEvent} {m c : Byte → Byte} {s : State}

theorem recompute_mapUnread (txen : (c s.cmd).getLsbD 0 = s.cmd.getLsbD 0) :
    (s.mapUnread g m c).recompute = s.recompute.mapUnread g m c := by
  have status : recomputedStatus (s.mapUnread g m c) = recomputedStatus s := by
    unfold recomputedStatus txrdyValue txeValue cmdTxen
    rw [show (s.mapUnread g m c).cmd = c s.cmd from rfl, txen]
    rfl
  exact congrArg (fun b => (s.withStatus b).mapUnread g m c) status

theorem record_mapUnread (append : ∀ e, g (s.trace ++ [e]) = g s.trace ++ [e]) (e : TraceEvent) :
    (s.mapUnread g m c).record e = (s.record e).mapUnread g m c :=
  congrArg (fun l => { s with trace := l, mode := m s.mode, cmd := c s.cmd }) (append e).symm

/-- The data write's push, TXRDY and TXE cleared before its recompute (R124). -/
theorem pushTx_mapUnread (txen : (c s.cmd).getLsbD 0 = s.cmd.getLsbD 0) (d : Byte) :
    (s.mapUnread g m c).pushTx d = (s.pushTx d).mapUnread g m c :=
  recompute_mapUnread (s := (s.withTxq (s.txq ++ [d])).withStatus (txFlagsCleared s.status)) txen

theorem overflowRx_mapUnread (append : ∀ e, g (s.trace ++ [e]) = g s.trace ++ [e]) (b : Byte) :
    (s.mapUnread g m c).overflowRx b = (s.overflowRx b).mapUnread g m c := by
  have raised := record_mapUnread (m := m) (c := c) append (.raised (.queueOverflow .rx b))
  unfold State.overflowRx State.raise
  rw [raised, show (s.mapUnread g m c).params = s.params from rfl]
  cases s.params.overrunSetsOE <;> rfl

/-- Returning a value passes through, so an answer does where the state it returns from does. -/
theorem next_mapUnread {u v : State} (h : u = v.mapUnread g m c) (r : Returned) :
    (.next (u.withReturned r) : Answer) = mapNext (State.mapUnread g m c) (.next (v.withReturned r)) := by
  rw [h]; rfl

theorem exec_rdData_mapUnread (append : ∀ e, g (s.trace ++ [e]) = g s.trace ++ [e])
    (txen : (c s.cmd).getLsbD 0 = s.cmd.getLsbD 0) :
    exec .rdData (s.mapUnread g m c) = mapNext (State.mapUnread g m c) (exec .rdData s) := by
  by_cases op : s.usartState = .operational
  · cases q : s.rxq with
    | nil =>
      rw [exec_rdData_empty op q, exec_rdData_empty (s := s.mapUnread g m c) op q]
      rfl
    | cons b rest =>
      rw [exec_rdData_head op q, exec_rdData_head (s := s.mapUnread g m c) op q]
      exact next_mapUnread (recompute_mapUnread (s := s.withRxq rest) txen) _
  · rw [exec_rdData_notOperational op, exec_rdData_notOperational (s := s.mapUnread g m c) op]
    exact next_mapUnread (record_mapUnread append _) _

theorem exec_wrData_mapUnread (append : ∀ e, g (s.trace ++ [e]) = g s.trace ++ [e])
    (txen : (c s.cmd).getLsbD 0 = s.cmd.getLsbD 0) (d : Byte) :
    exec (.wrData d) (s.mapUnread g m c) = mapNext (State.mapUnread g m c) (exec (.wrData d) s) := by
  by_cases op : s.usartState = .operational
  · cases on : s.cmd.getLsbD 0 with
    | false =>
      rw [exec_wrData_txDisabled d op on, exec_wrData_txDisabled (s := s.mapUnread g m c) d op (txen.trans on)]
      exact next_mapUnread (record_mapUnread append _) _
    | true =>
      have on' : (s.mapUnread g m c).cmd.getLsbD 0 = true := txen.trans on
      by_cases full : s.txq.length = s.params.txCap
      · rw [exec_wrData_full d op on full, exec_wrData_full (s := s.mapUnread g m c) d op on' full]
        exact next_mapUnread (record_mapUnread append _) _
      · rw [exec_wrData_room d op on full, exec_wrData_room (s := s.mapUnread g m c) d op on' full,
          pushTx_mapUnread txen]
        exact next_mapUnread (record_mapUnread (s := s.pushTx d) append _) _
  · rw [exec_wrData_notOperational d op, exec_wrData_notOperational (s := s.mapUnread g m c) d op]
    exact next_mapUnread (record_mapUnread append _) _

theorem exec_rxPush_mapUnread (append : ∀ e, g (s.trace ++ [e]) = g s.trace ++ [e])
    (txen : (c s.cmd).getLsbD 0 = s.cmd.getLsbD 0) (b : Byte) :
    exec (.rxPush b) (s.mapUnread g m c) = mapNext (State.mapUnread g m c) (exec (.rxPush b) s) := by
  by_cases full : s.rxq.length = s.params.rxCap
  · rw [exec_rxPush_full b full, exec_rxPush_full (s := s.mapUnread g m c) b full]
    exact next_mapUnread (overflowRx_mapUnread append b) _
  · rw [exec_rxPush_room b full, exec_rxPush_room (s := s.mapUnread g m c) b full]
    exact next_mapUnread (recompute_mapUnread (s := s.withRxq (s.rxq ++ [b])) txen) _

theorem exec_txPop_mapUnread (txen : (c s.cmd).getLsbD 0 = s.cmd.getLsbD 0) :
    exec .txPop (s.mapUnread g m c) = mapNext (State.mapUnread g m c) (exec .txPop s) := by
  cases q : s.txq with
  | nil =>
    rw [exec_txPop_empty q, exec_txPop_empty (s := s.mapUnread g m c) q]
    rfl
  | cons b rest =>
    rw [exec_txPop_head q, exec_txPop_head (s := s.mapUnread g m c) q]
    exact next_mapUnread (recompute_mapUnread (s := s.withTxq rest) txen) _

/-- A control write that stores `v` overwrites what the change made of `CMD`, and reads no bit of it. -/
theorem storeCommand_mapUnread {v : Byte} (stored : c v = v) (next : UsartState) :
    (s.mapUnread g m c).storeCommand v next = (s.storeCommand v next).mapUnread g m c := by
  have command : (s.mapUnread g m c).withCmd v = (s.withCmd v).mapUnread g m c :=
    congrArg (fun b => { s with trace := g s.trace, mode := m s.mode, cmd := b }) stored.symm
  unfold State.storeCommand
  rw [command]
  exact recompute_mapUnread (s := ((s.withCmd v).erClear v).withUsartState next) (congrArg (·.getLsbD 0) stored)

theorem exec_wrCmd_mapUnread {v : Byte} (stored : c v = v) :
    exec (.wrCmd v) (s.mapUnread g m c) = mapNext (State.mapUnread g m c) (exec (.wrCmd v) s) := by
  change execWrCmd v _ = mapNext _ (execWrCmd v s)
  unfold execWrCmd
  rw [show (s.mapUnread g m c).usartState = s.usartState from rfl]
  cases controlWrite s.usartState v with
  | command => exact next_mapUnread (storeCommand_mapUnread stored _) _
  | mode => rfl
  | internalReset => rfl

theorem exec_wrMode_mapUnread {v : Byte} (stored : m v = v) :
    exec (.wrMode v) (s.mapUnread g m c) = mapNext (State.mapUnread g m c) (exec (.wrMode v) s) := by
  change execWrMode v _ = mapNext _ (execWrMode v s)
  unfold execWrMode
  rw [show (s.mapUnread g m c).usartState = s.usartState from rfl]
  cases controlWrite s.usartState v with
  | mode =>
    have mode : (s.mapUnread g m c).withMode v = (s.withMode v).mapUnread g m c :=
      congrArg (fun b => { s with trace := g s.trace, mode := b, cmd := c s.cmd }) stored.symm
    exact next_mapUnread (congrArg (·.withUsartState .modeInstruction) mode) _
  | command => rfl
  | internalReset => rfl

theorem exec_wrIr_mapUnread {v : Byte} (cleared : c 0x00#8 = 0x00#8) :
    exec (.wrIr v) (s.mapUnread g m c) = mapNext (State.mapUnread g m c) (exec (.wrIr v) s) := by
  change execWrIr v _ = mapNext _ (execWrIr v s)
  unfold execWrIr
  rw [show (s.mapUnread g m c).usartState = s.usartState from rfl]
  cases controlWrite s.usartState v with
  | internalReset =>
    have reset : (s.mapUnread g m c).internalReset = s.internalReset.mapUnread g m c :=
      congrArg (fun b => { s.internalReset with trace := g s.trace, mode := m s.mode, cmd := b }) cleared.symm
    exact next_mapUnread reset _
  | mode => rfl
  | command => rfl

/-- A change of `TRACE` that keeps appends, of `MODE`, and of `CMD` outside TXEN passes through every operation, where
the bytes a control write stores are ones the change keeps (R22, R24, R40). -/
theorem exec_mapUnread {i : Instr}
    (append : ∀ e, g (s.trace ++ [e]) = g s.trace ++ [e]) (txen : (c s.cmd).getLsbD 0 = s.cmd.getLsbD 0)
    (mode : ∀ v, i = .wrMode v → m v = v) (command : ∀ v, i = .wrCmd v → c v = v)
    (cleared : ∀ v, i = .wrIr v → c 0x00#8 = 0x00#8) :
    exec i (s.mapUnread g m c) = mapNext (State.mapUnread g m c) (exec i s) := by
  cases i with
  | rdData => exact exec_rdData_mapUnread append txen
  | rdStatus => rfl
  | wrData d => exact exec_wrData_mapUnread append txen d
  | wrMode v => exact exec_wrMode_mapUnread (mode v rfl)
  | wrCmd v => exact exec_wrCmd_mapUnread (command v rfl)
  | wrIr v => exact exec_wrIr_mapUnread (cleared v rfl)
  | rdOther => exact next_mapUnread (record_mapUnread append _) _
  | wrOther d => exact next_mapUnread (record_mapUnread append _) _
  | rxPush b => exact exec_rxPush_mapUnread append txen b
  | txPop => exact exec_txPop_mapUnread txen
  | connSet c => rfl

end

/-- Settles O29: putting records in front passes through an append. -/
theorem traceIsNeverRead : Obligations.TraceIsNeverRead := fun _ _ before =>
  exec_mapUnread (g := (before ++ ·)) (m := id) (c := id) (fun _ => (List.append_assoc ..).symm) rfl (fun _ _ => rfl)
    (fun _ _ => rfl) (fun _ _ => rfl)

/-- Settles O30: WR_MODE alone has a byte to store, and it overwrites the changed `MODE`. -/
theorem modeIsNeverRead : Obligations.ModeIsNeverRead :=
  ⟨fun _ _ m other => exec_mapUnread (g := id) (m := fun _ => m) (c := id) (fun _ => rfl) rfl
    (fun v op => absurd op (other v)) (fun _ _ => rfl) (fun _ _ => rfl), fun _ _ _ => rfl⟩

/-- Settles O31: WR_CMD and WR_IR overwrite the changed `CMD`; every other operation keeps it. -/
theorem storedCommandReadOnlyThroughTxen : Obligations.StoredCommandReadOnlyThroughTxen := by
  intro i s c txen
  have kept (command : ∀ v, i ≠ .wrCmd v) (reset : ∀ v, i ≠ .wrIr v) :
      exec i { s with cmd := c } = mapNext (fun t => { t with cmd := c }) (exec i s) :=
    exec_mapUnread (g := id) (m := id) (c := fun _ => c) (fun _ => rfl) txen (fun _ _ => rfl)
      (fun v op => absurd op (command v)) (fun v op => absurd op (reset v))
  cases i with
  | wrCmd v => rfl
  | wrIr v => rfl
  | _ => exact kept (fun _ => nofun) (fun _ => nofun)

end Sys2Proof.Machine
end

section
/-! SUPPORT. How OE, `STATE` and `CONN` move from input to input (R31, R38, R148), what the background context leaves as
it is between two host operations, and the statements on runs that follow. -/

namespace Sys2Proof.Machine

/-! ### OE -/

/-- Of all operations an internal reset, and a command write with ER under the parameter, clear OE (R31, R147). -/
theorem clears_oe {i : Instr} {s t : State} (h : exec i s = .next t) (was : s.status.getLsbD 4 = true)
    (cleared : t.status.getLsbD 4 = false) :
    (∃ v, i = .wrIr v) ∨ (∃ v, i = .wrCmd v ∧ v.getLsbD 4 = true ∧ s.params.overrunSetsOE = true) := by
  have kept (same : t.status.getLsbD 4 = s.status.getLsbD 4) : False := by
    rw [cleared, was] at same; cases same
  have recomputed (status : RecomputedFrom s.status t) : False := kept (status.2 4 (by decide) (by decide))
  cases exec_queueEffect h with
  | rxPushed _ _ _ _ status => exact (recomputed status).elim
  | rxPopped _ _ _ status => exact (recomputed status).elim
  | txPushed _ _ _ _ status => exact (recomputed status).elim
  | txPopped _ _ _ status => exact (recomputed status).elim
  | cleared v op => exact .inl ⟨v, op⟩
  | untouched _ _ status => exact (kept (congrArg (·.getLsbD 4) status)).elim
  | statusAlone op =>
    obtain ⟨v, rfl⟩ | ⟨c, rfl⟩ | ⟨b, rfl, full⟩ := op
    · obtain ⟨-, -, rfl⟩ := execWrCmd_next h
      obtain ⟨-, upper, -⟩ := storeCommand_spec s v (afterCommand s.usartState)
      have bit := cleared.symm.trans (upper 4 (by decide) (by decide))
      refine .inr ⟨v, rfl, ?_⟩
      simpa [was, and_comm] using bit
    · exact (kept (status_of_connSet h 4)).elim
    · rw [rxPush_full h full] at cleared
      have bit := cleared.symm.trans ((overflowRx_spec s b).1 4)
      rw [was] at bit
      cases bit

/-- Settles O36: an abandoned cycle and a change of the modem mode leave `STATUS` whole. -/
theorem overrunErrorStaysUntilCleared : Obligations.OverrunErrorStaysUntilCleared := by
  intro e s t h was cleared
  rw [issue_eq] at h
  obtain ⟨w, rfl⟩ | ⟨_, i, -, hx⟩ | ⟨m, -, rfl⟩ | ⟨he, -⟩ := runInput_next h
  · rw [(sameBank_abandon s w).status, was] at cleared
    cases cleared
  · exact .inr ⟨i, hx, clears_oe hx was cleared⟩
  · cases was.symm.trans cleared
  · exact .inl he

/-! ### `STATE` -/

/-- No input but a power-on leads into Reset (R148). -/
theorem runInput_ne_reset {e : Input} {s t : State} (h : runInput e s = .next t) (he : e ≠ .powerOn)
    (hs : s.usartState ≠ .reset) : t.usartState ≠ .reset := by
  obtain ⟨w, rfl⟩ | ⟨_, i, -, hx⟩ | ⟨m, -, rfl⟩ | ⟨power, -⟩ := runInput_next h
  · rw [(sameBank_abandon s w).usartState]; exact hs
  · exact fun post => hs (reset_of_exec_reset hx post)
  · exact hs
  · exact absurd power he

/-- Settles O37: each input of the list keeps `STATE` out of Reset. -/
theorem resetNeverReenteredWithoutPowerOn : Obligations.ResetNeverReenteredWithoutPowerOn := by
  intro es s t hs none h
  exact issueAll_keeps (P := fun u => u.usartState ≠ .reset) (Q := (· ≠ .powerOn))
    (fun _ _ _ he hu hx => runInput_ne_reset hx he hu) es s t (fun e he power => none (power ▸ he)) hs h

/-! ### `CONN` -/

/-- CONN_SET's word has 10 in bits 11 to 8 (R75). -/
theorem high_of_connSet {w : OpWord} {st : UsartState} {c : Bool} (h : decode w st = .op (.connSet c)) :
    w.toNat / 256 = 10 := by
  have high := high_of_and (m := 0xF01#12) (encode_of_decode h).symm (by decide)
  rw [high]
  cases c <;> rfl

theorem conn_kept {i : Instr} {s t : State} (h : exec i s = .next t) (other : ∀ c, i ≠ .connSet c) :
    t.conn = s.conn := by
  by_contra changed
  obtain ⟨-, -, -, -, -, -, conn, -⟩ := onlyListedOperationsWriteEachRegister i s t h
  obtain ⟨c, op⟩ := conn changed
  exact other c op

theorem runWord_conn {w : OpWord} {o : CycleOutcome} {s t : State} (h : runWord w o s = .next t) :
    t.conn = if w.toNat / 256 = 10 then w.getLsbD 0 else s.conn := by
  obtain ⟨host, -, rfl⟩ | ⟨i, hi, hx⟩ := runWord_next h
  · have low : w.toNat / 256 < 8 := by
      refine high_of_host (Bool.eq_false_iff.2 fun background => ?_)
      rw [wordAgent_background background] at host
      cases host
    rw [if_neg (by omega), (sameBank_abandon s w).conn]
  · split
    next call =>
      cases hi.symm.trans (decode_connSet call s.usartState)
      cases hx
      rfl
    next other => exact conn_kept hx fun c op => other (high_of_connSet (op ▸ hi))

/-- `CONN` after one input (R38). -/
theorem runInput_conn {e : Input} {s t : State} (h : runInput e s = .next t) : t.conn = connAfter s.conn e := by
  cases e with
  | op w o => exact runWord_conn h
  | cycle addr dir bus o =>
    have host := high_of_host (fieldA_cycleWord (portClass addr) dir bus)
    exact (runWord_conn h).trans (if_neg (by omega))
  | modemMode m => cases h; rfl
  | powerOn => cases h; rfl

/-- Settles O38: by induction on the inputs. -/
theorem connIsLastConnSet : Obligations.ConnIsLastConnSet := by
  intro es
  induction es with
  | nil => intro s t h; cases h; rfl
  | cons e es ih =>
    intro s t h
    obtain ⟨u, hu, ht⟩ := issueAll_cons_next.1 h
    rw [ih u t ht, runInput_conn hu]
    rfl

/-! ### Between two host operations -/

/-- What background calls and changes of the modem mode can do to what a host operation depends on: RXQ grows at its
tail, TXQ shrinks at its head, and `STATE`, `CMD` and the parameters stay. -/
structure HostUndisturbed (s t : State) : Prop where
  usartState : t.usartState = s.usartState
  cmd : t.cmd = s.cmd
  params : t.params = s.params
  rxq : s.rxq <+: t.rxq
  txq : t.txq <:+ s.txq

theorem HostUndisturbed.refl (s : State) : HostUndisturbed s s := ⟨rfl, rfl, rfl, ⟨[], List.append_nil _⟩, List.suffix_rfl⟩

theorem HostUndisturbed.trans {s t u : State} (st : HostUndisturbed s t) (tu : HostUndisturbed t u) :
    HostUndisturbed s u :=
  ⟨tu.usartState.trans st.usartState, tu.cmd.trans st.cmd, tu.params.trans st.params, st.rxq.trans tu.rxq,
    tu.txq.trans st.txq⟩

/-- The three background calls disturb no host operation. -/
theorem exec_hostUndisturbed {i : Instr} {s t : State} (h : exec i s = .next t) (call : i.agent = .background) :
    HostUndisturbed s t := by
  cases i with
  | rxPush b =>
    obtain ⟨-, rfl⟩ | ⟨-, rfl⟩ := execRxPush_next h
    · rw [(overflowRx_spec s b).2]
      exact ⟨rfl, rfl, rfl, ⟨[], List.append_nil _⟩, List.suffix_rfl⟩
    · exact ⟨rfl, rfl, rfl, ⟨[b], rfl⟩, List.suffix_rfl⟩
  | txPop =>
    obtain ⟨-, rfl⟩ | ⟨d, rest, hq, rfl⟩ := execTxPop_next h
    · exact ⟨rfl, rfl, rfl, ⟨[], List.append_nil _⟩, List.suffix_rfl⟩
    · exact ⟨rfl, rfl, rfl, ⟨[], List.append_nil _⟩, hq ▸ List.suffix_cons d rest⟩
  | connSet c => cases h; exact ⟨rfl, rfl, rfl, ⟨[], List.append_nil _⟩, List.suffix_rfl⟩
  | _ => cases call

theorem runInput_hostUndisturbed {e : Input} {s t : State} (h : runInput e s = .next t) (he : e.notHost = true) :
    HostUndisturbed s t := by
  cases e with
  | op w o =>
    have background : wordAgent w = .background := wordAgent_background he
    obtain ⟨host, -, -⟩ | ⟨i, hi, hx⟩ := runWord_next h
    · cases background.symm.trans host
    · exact exec_hostUndisturbed hx ((agent_of_decode hi).trans background)
  | cycle addr dir bus o => cases he
  | modemMode m => cases h; exact ⟨rfl, rfl, rfl, ⟨[], List.append_nil _⟩, List.suffix_rfl⟩
  | powerOn => cases he

/-- A whole run without host operations disturbs none. -/
theorem issueAll_hostUndisturbed {es : List Input} {s t : State} (hes : ∀ e ∈ es, e.notHost = true)
    (h : issueAll es s = .next t) : HostUndisturbed s t :=
  issueAll_keeps (P := HostUndisturbed s) (Q := (·.notHost = true))
    (fun _ _ _ he hu hx => hu.trans (runInput_hostUndisturbed hx he)) es s t hes (.refl s) h

/-- In Operational RXRDY = 1 says that RXQ holds a byte (R28, R41). -/
theorem rxq_of_rxrdy {s : State} (inv : BankInv s) (op : s.usartState = .operational)
    (rxrdy : s.status.getLsbD 1 = true) : ∃ b rest, s.rxq = b :: rest := by
  have image : ImageHolds s := inv.image (by rw [op]; decide)
  rw [image.rxrdy, decide_eq_true_eq] at rxrdy
  exact List.exists_cons_of_ne_nil rxrdy

/-- In Operational TXRDY = 1 says that a data write is effective (R27, R41, R123). -/
theorem writeEffective_of_txrdy {s : State} (inv : BankInv s) (op : s.usartState = .operational)
    (txrdy : s.status.getLsbD 0 = true) : WriteEffective s := by
  have image : ImageHolds s := inv.image (by rw [op]; decide)
  rw [image.txrdy, Bool.and_eq_true, decide_eq_true_eq] at txrdy
  exact ⟨op, txrdy⟩

/-- What was effective stays so: TXQ does not grow in between. -/
theorem WriteEffective.undisturbed {s t : State} (effective : WriteEffective s) (quiet : HostUndisturbed s t) :
    WriteEffective t := by
  obtain ⟨op, txen, room⟩ := effective
  refine ⟨quiet.usartState.trans op, by rw [quiet.cmd]; exact txen, ?_⟩
  rw [quiet.params]
  exact quiet.txq.length_le.trans_lt room

/-- An effective data write queues its byte, recomputes and hands the byte off (R124, R125). -/
theorem exec_wrData_effective {s : State} (effective : WriteEffective s) (d : Byte) :
    exec (.wrData d) s = .next (((s.pushTx d).handOff (handOffDest s.mm) d).withReturned .nothing) := by
  obtain ⟨op, txen, room⟩ := effective
  exact exec_wrData_room d op txen room.ne

/-- Settles O41: the head is there at the start, and the calls in between only append to RXQ. -/
theorem guardedReadReturnsHead : Obligations.GuardedReadReturnsHead := by
  intro s t es inv op rxrdy hes h
  obtain ⟨b, rest, head⟩ := rxq_of_rxrdy inv op rxrdy
  have quiet := issueAll_hostUndisturbed hes h
  obtain ⟨added, rxq⟩ := quiet.rxq
  have head' : t.rxq = b :: (rest ++ added) := by rw [← rxq, head]; rfl
  have read := (issue_inD t).trans (exec_rdData_head (quiet.usartState.trans op) head')
  exact ⟨b, _, by rw [head]; rfl, read, rfl, head'⟩

/-- Settles O42: the write is effective at the start, and the calls in between take nothing of that away. -/
theorem guardedWriteIsEffective : Obligations.GuardedWriteIsEffective := by
  intro s t es d inv op txrdy hes h
  have effective := (writeEffective_of_txrdy inv op txrdy).undisturbed (issueAll_hostUndisturbed hes h)
  rw [← handOffDest_eq]
  exact ⟨effective, _, (issue_outD d t).trans (exec_wrData_effective effective d), rfl, rfl⟩

end Sys2Proof.Machine
end

section
/-! SUPPORT. Lists of inputs run forwards, and the statements on sequences of operations: the queues' order (R53, R127),
the way through the control states (R151, R245, R246, R249), and the transmitter and receiver flags (R121, R126, R144,
R149). -/

namespace Sys2Proof.Machine

/-! ### One input, then the rest -/

theorem issueAll_cons {e : Input} {s u : State} (h : issue e s = .next u) (es : List Input) :
    issueAll (e :: es) s = issueAll es u := by
  rw [issueAll, h]

theorem returnsOf_cons {e : Input} {s u : State} (h : issue e s = .next u) (es : List Input) :
    returnsOf (e :: es) s = u.returned :: returnsOf es u := by
  rw [returnsOf, h]

/-! ### The queues keep their order -/

/-- Pushes that fit append their bytes to RXQ (R160). -/
theorem issueAll_rxPushes (bs : List Byte) : ∀ s : State, s.rxq.length + bs.length ≤ s.params.rxCap →
    ∃ t, issueAll (bs.map fun b => (AsmLine.bgRxPush b).input) s = .next t ∧ t.rxq = s.rxq ++ bs ∧
      t.usartState = s.usartState := by
  induction bs with
  | nil => exact fun s _ => ⟨s, rfl, (List.append_nil _).symm, rfl⟩
  | cons b bs ih =>
    intro s fits
    rw [List.length_cons] at fits
    have push := (issue_bgRxPush b s).trans (exec_rxPush_room b (by omega))
    have rxq : (s.pushRx b).rxq = s.rxq ++ [b] := rfl
    obtain ⟨t, ht, trxq, state⟩ := ih ((s.pushRx b).withReturned .nothing) (by
      change (s.rxq ++ [b]).length + bs.length ≤ s.params.rxCap
      rw [List.length_append, List.length_singleton]
      omega)
    refine ⟨t, (issueAll_cons push _).trans ht, ?_, state⟩
    rw [trxq, State.withReturned_rxq, rxq, List.append_assoc, List.singleton_append]

/-- In Operational as many reads as RXQ holds bytes return them from the head on (R121). -/
theorem returnsOf_reads (q : List Byte) : ∀ s : State, s.usartState = .operational → s.rxq = q →
    returnsOf (List.replicate q.length AsmLine.inD.input) s = q.map .toHost := by
  induction q with
  | nil => exact fun _ _ _ => rfl
  | cons b rest ih =>
    intro s op head
    have read := (issue_inD s).trans (exec_rdData_head op head)
    exact (returnsOf_cons read _).trans (congrArg (.toHost b :: ·) (ih ((s.dropRx rest).withReturned (.toHost b)) op rfl))

/-- Settles O39: the pushes leave RXQ as the old bytes and the new ones, and the reads take it off from the head. -/
theorem receivedBytesReadInPushOrder : Obligations.ReceivedBytesReadInPushOrder := by
  intro s bs op fits
  obtain ⟨t, ht, rxq, state⟩ := issueAll_rxPushes bs s fits
  refine ⟨t, ht, ?_⟩
  rw [← List.length_append]
  exact returnsOf_reads (s.rxq ++ bs) t (state.trans op) rxq

/-- Data writes that fit append their bytes to TXQ and hand each off (R124, R125). -/
theorem issueAll_writes (ds : List Byte) : ∀ s : State, s.usartState = .operational → s.cmd.getLsbD 0 = true →
    s.txq.length + ds.length ≤ s.params.txCap →
    ∃ t, issueAll (ds.map fun d => (AsmLine.outD d).input) s = .next t ∧ t.txq = s.txq ++ ds ∧
      t.trace = s.trace ++ ds.map (.handOff (handOffDest s.mm)) := by
  induction ds with
  | nil => exact fun s _ _ _ => ⟨s, rfl, (List.append_nil _).symm, (List.append_nil _).symm⟩
  | cons d ds ih =>
    intro s op txen fits
    rw [List.length_cons] at fits
    have write := (issue_outD d s).trans (exec_wrData_room d op txen (by omega))
    obtain ⟨t, ht, txq, trace⟩ := ih (((s.pushTx d).handOff (handOffDest s.mm) d).withReturned .nothing) op txen (by
      change (s.txq ++ [d]).length + ds.length ≤ s.params.txCap
      rw [List.length_append, List.length_singleton]
      omega)
    refine ⟨t, (issueAll_cons write _).trans ht, ?_, ?_⟩
    · exact txq.trans (List.append_assoc s.txq [d] ds)
    · exact trace.trans (List.append_assoc s.trace [_] _)

/-- As many pops as TXQ holds bytes return them from the head on (R163). -/
theorem returnsOf_pops (q : List Byte) : ∀ s : State, s.txq = q →
    returnsOf (List.replicate q.length AsmLine.bgTxPop.input) s = q.map (fun b => .toBackground (some b)) := by
  induction q with
  | nil => exact fun _ _ => rfl
  | cons b rest ih =>
    intro s head
    have pop := (issue_bgTxPop s).trans (exec_txPop_head head)
    exact (returnsOf_cons pop _).trans (congrArg (.toBackground (some b) :: ·)
      (ih ((s.dropTx rest).withReturned (.toBackground (some b))) rfl))

/-- Settles O40: the writes leave TXQ as the old bytes and the new ones, and the pops take it off from the head. -/
theorem writtenBytesQueueInWriteOrder : Obligations.WrittenBytesQueueInWriteOrder := by
  intro s ds op txen fits
  obtain ⟨t, ht, txq, trace⟩ := issueAll_writes ds s op txen fits
  rw [← handOffDest_eq, ← List.length_append]
  exact ⟨t, ht, txq, trace, returnsOf_pops (s.txq ++ ds) t txq⟩

/-! ### Through the control states -/

/-- A control write with bit 6 set leads out of Reset as out of every other state, and keeps `CONN` and the parameters
(R142, R146). -/
theorem issue_outC_to_modeInstruction (s : State) {v : Byte} (ir : v.getLsbD 6 = true) :
    ∃ t, issue (AsmLine.outC v).input s = .next t ∧ t.usartState = .modeInstruction ∧ t.conn = s.conn ∧
      t.params = s.params := by
  by_cases hs : s.usartState = .reset
  · exact ⟨_, issue_outC_mode hs v, rfl, rfl, rfl⟩
  · exact ⟨_, issue_outC_internalReset hs ir, rfl, rfl, rfl⟩

/-- Settles O43: after the first byte `STATE` is ModeInstruction, so the second is an internal reset. -/
theorem twoResetBytesReachInternalResetState : Obligations.TwoResetBytesReachInternalResetState := by
  intro s v v' ir ir'
  obtain ⟨u, hu, state, conn, params⟩ := issue_outC_to_modeInstruction s ir
  have reset := issue_outC_internalReset (s := u) (by rw [state]; decide) ir'
  exact ⟨_, (issueAll_cons hu _).trans (issueAll_cons reset []), rfl, rfl,
    congrArg Config.Params.irStatus params, rfl, rfl, conn⟩

/-- From ModeInstruction a command write leads to CommandInstruction (R143). -/
theorem issue_outC_first {s : State} {k : Byte} (hs : s.usartState = .modeInstruction) (ir : k.getLsbD 6 = false) :
    issue (AsmLine.outC k).input s = .next ((s.storeCommand k .commandInstruction).withReturned .nothing) := by
  rw [issue_outC_command (by rw [hs]; decide) ir, hs]
  rfl

/-- From CommandInstruction a command write leads to Operational (R144). -/
theorem issue_outC_second {s : State} {k : Byte} (hs : s.usartState = .commandInstruction)
    (ir : k.getLsbD 6 = false) :
    issue (AsmLine.outC k).input s = .next ((s.storeCommand k .operational).withReturned .nothing) := by
  rw [issue_outC_command (by rw [hs]; decide) ir, hs]
  rfl

/-- RESETUP from ModeInstruction (R82, R245). -/
theorem resetup_reaches_operational {s : State} {k : Byte} (hs : s.usartState = .modeInstruction)
    (ir : k.getLsbD 6 = false) :
    ∃ t, issueAll (Pseudo.resetup k).inputs s = .next t ∧ t.usartState = .operational ∧ t.mode = s.mode ∧ t.cmd = k ∧
      t.rxq = s.rxq ∧ t.txq = s.txq ∧ ImageHolds t := by
  have first := issue_outC_first hs ir
  have second := issue_outC_second (s := (s.storeCommand k .commandInstruction).withReturned .nothing) rfl ir
  obtain ⟨image, -⟩ := storeCommand_spec ((s.storeCommand k .commandInstruction).withReturned .nothing) k .operational
  exact ⟨_, (issueAll_cons first _).trans (issueAll_cons second []), rfl, rfl, rfl, rfl, rfl, image.withReturned _⟩

/-- Settles O44: SETUP is the mode write and then RESETUP; IRESET is one internal reset. -/
theorem pseudoInstructionsReachTheirState : Obligations.PseudoInstructionsReachTheirState := by
  refine ⟨fun s m k hs ir => ?setup, fun s k hs ir => resetup_reaches_operational hs ir, fun s hs => ?ireset⟩
  case setup =>
    obtain ⟨t, ht, rest⟩ :=
      resetup_reaches_operational (s := ((s.withMode m).withUsartState .modeInstruction).withReturned .nothing) rfl ir
    exact ⟨t, (issueAll_cons (issue_outC_mode hs m) _).trans ht, rest⟩
  case ireset => exact issueAll_cons (issue_outC_internalReset hs (by decide)) []

/-- Settles O45: the three inputs run one after another; the data write finds ModeInstruction and is dropped. -/
theorem txrdyAfterInternalResetPromisesNothing : Obligations.TxrdyAfterInternalResetPromisesNothing := by
  intro s d hs status
  have reset := issue_outC_internalReset (v := 0x40#8) hs (by decide)
  have read : issue AsmLine.inC.input (s.internalReset.withReturned .nothing) =
      .next (s.internalReset.withReturned (.toHost s.params.irStatus)) := issue_inC _
  have write := (issue_outD d (s.internalReset.withReturned (.toHost s.params.irStatus))).trans
    (exec_wrData_notOperational d (show UsartState.modeInstruction ≠ .operational by decide))
  rw [issueAll_cons reset, issueAll_cons read, issueAll_cons write, returnsOf_cons reset, returnsOf_cons read]
  refine ⟨_, rfl, ?_, rfl, rfl, status, rfl, rfl, rfl, rfl⟩
  rw [← status]
  rfl

/-- Settles O46: after the first command write `STATE` is CommandInstruction, where data accesses are dropped; the second
leads on. -/
theorem twoCommandWritesReachOperational : Obligations.TwoCommandWritesReachOperational := by
  intro s k k' hs ir ir'
  have first := issue_outC_first hs ir
  have second := issue_outC_second (s := (s.storeCommand k .commandInstruction).withReturned .nothing) rfl ir'
  have nop : UsartState.commandInstruction ≠ .operational := by decide
  refine ⟨_, _, issueAll_cons first [], rfl, fun d t' h => ?write, fun t' h => ?read, issueAll_cons second [], rfl, rfl,
    rfl⟩
  case write =>
    rw [issue_outD, exec_wrData_notOperational d nop] at h
    cases h
    rfl
  case read =>
    rw [issue_inD, exec_rdData_notOperational nop] at h
    cases h
    exact ⟨rfl, rfl⟩

/-! ### The flags after one operation -/

/-- Settles O47: both statuses are the image, of states that differ in RXQ alone; the bits above are kept. -/
theorem popChangesRxrdyOnly : Obligations.PopChangesRxrdyOnly := by
  intro s t inv op nonempty h
  have before : ImageHolds s := inv.image (by rw [op]; decide)
  obtain ⟨nop, -⟩ | ⟨-, empty, -⟩ | ⟨b, rest, -, -, rfl⟩ := execRdData_next h
  · exact absurd op nop
  · exact absurd empty nonempty
  · obtain ⟨after, upper⟩ := (dropRx_spec s rest).1.withReturned (.toHost b)
    refine ⟨after.rxrdy, fun k hk => ?_⟩
    obtain rfl | rfl | rfl | ⟨low, high⟩ | beyond : k = 0 ∨ k = 2 ∨ k = 7 ∨ (3 ≤ k ∧ k ≤ 6) ∨ 8 ≤ k := by omega
    · exact after.txrdy.trans before.txrdy.symm
    · exact after.txe.trans before.txe.symm
    · exact after.dsr.trans before.dsr.symm
    · exact upper k low high
    · rw [BitVec.getLsbD_of_ge _ k beyond, BitVec.getLsbD_of_ge _ k beyond]

/-- The transmitter flags after a command write: the image with its byte as the command and TXQ as it was (R143). -/
theorem txFlags_of_wrCmd {s t : State} {v : Byte} (h : exec (.wrCmd v) s = .next t) :
    t.status.getLsbD 2 = (v.getLsbD 0 && decide (s.txq = [])) ∧
      t.status.getLsbD 0 = (v.getLsbD 0 && decide (s.txq.length < s.params.txCap)) := by
  have image := imageHolds_of_wrCmd h
  obtain ⟨-, -, rfl⟩ := execWrCmd_next h
  exact ⟨image.txe, image.txrdy⟩

/-- Settles O48: before Operational TXQ is empty, and a capacity is above 0. -/
theorem txFlagsAfterCommandWrite : Obligations.TxFlagsAfterCommandWrite := by
  refine ⟨fun s t v inv hs h => ?entering, fun s t v h txen room => ?room⟩
  case entering =>
    obtain ⟨txe, txrdy⟩ := txFlags_of_wrCmd h
    have empty : s.txq = [] := inv.txqOperational (by rw [hs]; decide)
    have room : s.txq.length < s.params.txCap := by rw [empty]; exact inv.params.capacities.2
    rw [decide_eq_true empty, Bool.and_true] at txe
    rw [decide_eq_true room, Bool.and_true] at txrdy
    exact ⟨txe, txrdy⟩
  case room => rw [(txFlags_of_wrCmd h).2, txen, decide_eq_true room, Bool.and_true]

/-- Settles O49: the push's recompute sees a TXQ that is not empty and one byte longer. -/
theorem txrdyAfterEffectiveWrite : Obligations.TxrdyAfterEffectiveWrite := by
  intro s d effective
  have ⟨_, on, _⟩ := effective
  obtain ⟨⟨image, -⟩, -⟩ := pushTx_spec s d
  have nonempty : (s.pushTx d).txq ≠ [] := List.concat_ne_nil d s.txq
  have length : (s.pushTx d).txq.length = s.txq.length + 1 := List.length_append
  have txen : (s.pushTx d).cmd.getLsbD 0 = true := on
  refine ⟨_, exec_wrData_effective effective d, image.txe.trans ?_, image.txrdy.trans ?_⟩
  · rw [decide_eq_false nonempty, Bool.and_false]
  · rw [txen, length, Bool.true_and]
    rfl

end Sys2Proof.Machine
end
